-- ==== Sys2Proof/Word.lean ====
section
/-! DEFINITION. The widths of the block's values (00_scope.md R7: W_HOST = 8, W_DSP = 16) and of an event word
(30_encoding.md R60: 35 bits). -/

namespace Sys2Proof

/-- A host-side register or datum, 8 bits (00_scope.md R7, W_HOST). -/
abbrev Byte := BitVec 8

/-- A DSP-side register, address or datum, 16 bits (00_scope.md R7, W_DSP). -/
abbrev Word := BitVec 16

/-- An event word, 35 bits (30_encoding.md R60). -/
abbrev EventWord := BitVec 35

end Sys2Proof
end

