-- ==== Sys2Proof/Config.lean ====
section
/-! DEFINITION. The configuration record Cfg (00_scope.md R7): its fixed, its decided and its OPEN fields, as plain
data, and the free values. The fixed and decided fields have one value for every machine, Layout.fixed and
Layout.decided of Machine/Layout.lean, the one place an audit changes; the OPEN ones are a field of State that no event
changes, so a claim about every state holds for every choice of them. The two numbers that types depend on, W_HOST and
W_DSP, are in Word.lean; DSP_COUNT and the width of CVR.HV, which types depend on too, are here. -/

namespace Sys2Proof

/-- BOOT.mode (10_state.md R24). -/
inductive BootMode where
  | active
  | off
deriving DecidableEq, Repr, Inhabited

/-- The class DSP_MAP gives a DSP address (00_scope.md R7, 44_dsp_dispatcher.md R170). -/
inductive DspClass where
  /-- Plain(mask): storage under a valid mask. -/
  | plain (mask : Word)
  /-- Discard: reserved, test-only or future-use; writes are discarded. -/
  | discard
deriving DecidableEq, Repr, Inhabited

/-- DSP_COUNT: how many word addresses the peripheral window has (00_scope.md R7, fixed). -/
@[simp] abbrev dspCount : Nat := 64

/-- The width of CVR.HV (30_encoding.md R64, the spec's decision D4). -/
@[simp] abbrev hvWidth : Nat := 5

/-! ## The layouts (30_encoding.md R63 to R69): the bit of a one-bit field, the lowest bit of a wider one -/

/-- The fields of ICR (R63). -/
structure IcrLayout where
  hf1 : Nat
  hf0 : Nat
  treq : Nat
  rreq : Nat
deriving DecidableEq, Repr

/-- The fields of CVR (R64); HV is hvWidth bits wide. -/
structure CvrLayout where
  hc : Nat
  hv : Nat
deriving DecidableEq, Repr

/-- The fields of ISR (R65). -/
structure IsrLayout where
  hf3 : Nat
  hf2 : Nat
  txde : Nat
  rxdf : Nat
deriving DecidableEq, Repr

/-- The fields of HCR (R67). -/
structure HcrLayout where
  hf3 : Nat
  hf2 : Nat
  hcie : Nat
  htie : Nat
  hrie : Nat
deriving DecidableEq, Repr

/-- The fields of HSR (R68). -/
structure HsrLayout where
  hf1 : Nat
  hf0 : Nat
  hcp : Nat
  htde : Nat
  hrdf : Nat
deriving DecidableEq, Repr

/-- The fields of IPR (R69): seven of two bits, two trigger bits. -/
structure IprLayout where
  timer : Nat
  ssi1 : Nat
  ssi0 : Nat
  host : Nat
  codec : Nat
  irqbTrigger : Nat
  irqb : Nat
  irqaTrigger : Nat
  irqa : Nat
deriving DecidableEq, Repr

/-! ## The three kinds of fields (00_scope.md R7) -/

/-- The fields of kind "fixed", with the host offsets (20_memory.md R41), which 00_scope.md R2 counts among the
literals to audit. -/
structure Cfg.Fixed where
  offICR : Byte
  offCVR : Byte
  offISR : Byte
  offIVR : Byte
  offUnused4 : Byte
  offRsvd5 : Byte
  /-- TXH for a write, RXH for a read. -/
  offTXH : Byte
  /-- TXL for a write, RXL for a read. -/
  offTXL : Byte
  /-- The first offset of the "any other offset" range. -/
  offFirstInvalid : Byte
  /-- DSP_BASE. -/
  dspBase : Word
  addrPBC : Word
  addrHCR : Word
  addrBCR : Word
  addrIPR : Word
  addrPCD : Word
  addrHTRX : Word
  /-- SENT16, the DSP read of ADDR_HTRX with HRDF clear. -/
  sent16 : Word
  /-- SENT8, the host read of offset 0x06 or 0x07 with RXDF clear. -/
  sent8 : Byte
  /-- HOST_RD_INVALID, the host read of any offset above 0x07. -/
  hostRdInvalid : Byte
  /-- HOST_RD_UNUSED4, the host read of offset 0x04. -/
  hostRdUnused4 : Byte
  /-- BOOT_LIMIT, the offset at which the bootstrap deactivates. -/
  bootLimit : Nat
  /-- BOOT.offset after reset (10_state.md R34). -/
  resetBootOffset : Nat
  /-- The program address an abort forces (43_bootstrap_loader.md R154). -/
  abortTarget : Nat
  /-- The bit of a host write of ICR that aborts the bootstrap (document; 30_encoding.md R63). -/
  icrAbortBit : Nat
  maskPBC : Word
deriving DecidableEq, Repr

/-- The fields of kind "decided". -/
structure Cfg.Decided where
  /-- ADDR_HSR (decision D9). -/
  addrHSR : Word
  maskICR : Byte
  maskCVR : Byte
  maskISR : Byte
  maskIVR : Byte
  maskHCR : Word
  maskHSR : Word
  maskIPR : Word
  /-- LAYOUT, register by register. -/
  icr : IcrLayout
  cvr : CvrLayout
  isr : IsrLayout
  hcr : HcrLayout
  hsr : HsrLayout
  ipr : IprLayout
  /-- The reset values of everything a rule reads (decision D19). -/
  resetTXDE : Bool
  resetHRDF : Bool
  resetHTDE : Bool
  resetRXDF : Bool
  resetHCP : Bool
  resetHC : Bool
  resetHCR : Word
  resetICR : Byte
deriving DecidableEq, Repr

/-- The fields of kind "OPEN": the arguments of the model. -/
structure Cfg.Open where
  /-- BOOT_AT_RESET. -/
  bootAtReset : BootMode
  /-- ABORT_LATCHES_HF0. -/
  abortLatchesHf0 : Bool
  /-- HOST_RD5, the host read of offset 0x05. -/
  hostRd5 : Byte
  /-- MASK_BCR. -/
  maskBcr : Word
  /-- MASK_PCD. -/
  maskPcd : Word
  /-- DSP_MAP, by backing-store index; the entries of the seven named addresses are not used. -/
  dspMap : Vector DspClass dspCount
  /-- TRIG_POLARITY: the value of a trigger-mode bit that means edge-sensitive. -/
  edgeBit : Bool
  /-- RESET_HV. -/
  resetHv : BitVec hvWidth
  /-- RESET_IVR. -/
  resetIvr : Byte
  /-- RESET_IPR. -/
  resetIpr : Word
  /-- RESET_P[i]. -/
  resetP : Vector Word dspCount
deriving DecidableEq, Repr

/-- The configuration record (00_scope.md R7): every constant and every open choice. -/
structure Cfg extends Cfg.Fixed, Cfg.Decided, Cfg.Open
deriving DecidableEq, Repr

/-! ## Free values -/

/-- HOST_RD5 of a machine at State.reset: any value (00_scope.md R7; assumption log 2). -/
opaque Config.hostRd5 : Byte
/-- MASK_BCR of a machine at State.reset: any mask (00_scope.md R7; assumption log 2). -/
opaque Config.maskBcr : Word
/-- MASK_PCD of a machine at State.reset: any mask (00_scope.md R7; assumption log 2). -/
opaque Config.maskPcd : Word
/-- DSP_MAP of a machine at State.reset: any classes (00_scope.md R7; assumption log 2). -/
opaque Config.dspMap : Vector DspClass dspCount
/-- TRIG_POLARITY of a machine at State.reset: either value (00_scope.md R7; assumption log 2). -/
opaque Config.edgeBit : Bool

/-- The n-th free byte: what RESET leaves in a byte register the spec leaves unspecified (10_state.md R34,
70_reset_and_hazards.md R240; assumption log 4). -/
opaque Config.freeByte : Nat → Byte
/-- The n-th free word, for the two word registers of the same rule (assumption log 4). -/
opaque Config.freeWord : Nat → Word

/-- The open parameters of a machine at State.reset: the defaults of 00_scope.md R7 where it states one (assumption
log 1), a free value where it states none (assumption log 2). -/
def Cfg.Open.atReset : Cfg.Open where
  bootAtReset := .active
  abortLatchesHf0 := false
  hostRd5 := Config.hostRd5
  maskBcr := Config.maskBcr
  maskPcd := Config.maskPcd
  dspMap := Config.dspMap
  edgeBit := Config.edgeBit
  resetHv := 0
  resetIvr := 0x00
  resetIpr := 0x0000
  resetP := Vector.replicate dspCount 0x0000

end Sys2Proof
end

