-- ==== Sys2Proof/Machine/Layout.lean ====
section
/-! DEFINITION. The values of the fixed and decided fields of Cfg (00_scope.md R2 and R7: "A model must carry each
literal as a named constant of its configuration"; 30_encoding.md section 2: "A model must take the layouts from one
table"), and a name for each. An audit against the repository changes Layout.fixed or Layout.decided and no other
definition (assumption log 14). -/

namespace Sys2Proof.Layout

/-- The fixed fields of Cfg, from the document (00_scope.md R7; the offsets 20_memory.md R41, the abort bit 30_encoding.md
R63, the abort target 43_bootstrap_loader.md R154). -/
@[simp] abbrev fixed : Cfg.Fixed where
  offICR := 0x00#8
  offCVR := 0x01#8
  offISR := 0x02#8
  offIVR := 0x03#8
  offUnused4 := 0x04#8
  offRsvd5 := 0x05#8
  offTXH := 0x06#8
  offTXL := 0x07#8
  offFirstInvalid := 0x08#8
  dspBase := 0xffc0#16
  addrPBC := 0xffc0#16
  addrHCR := 0xffc4#16
  addrBCR := 0xffde#16
  addrIPR := 0xffdf#16
  addrPCD := 0xffe3#16
  addrHTRX := 0xffe5#16
  sent16 := 0xbeef#16
  sent8 := 0xbf#8
  hostRdInvalid := 0xff#8
  hostRdUnused4 := 0x00#8
  bootLimit := 0x800
  resetBootOffset := 0
  abortTarget := 0
  icrAbortBit := 3
  maskPBC := 0x0001#16

/-- The decided fields of Cfg (00_scope.md R7, 30_encoding.md R63 to R69, 10_state.md R34): the choices of this spec,
D3 to D9, D19 and D27. -/
@[simp] abbrev decided : Cfg.Decided where
  addrHSR := 0xffe4#16
  maskICR := 0x1b#8
  maskCVR := 0x9f#8
  maskISR := 0x1b#8
  maskIVR := 0xff#8
  maskHCR := 0x001f#16
  maskHSR := 0x001f#16
  maskIPR := 0xffff#16
  icr := { hf1 := 4, hf0 := 3, treq := 1, rreq := 0 }
  cvr := { hc := 7, hv := 0 }
  isr := { hf3 := 4, hf2 := 3, txde := 1, rxdf := 0 }
  hcr := { hf3 := 4, hf2 := 3, hcie := 2, htie := 1, hrie := 0 }
  hsr := { hf1 := 4, hf0 := 3, hcp := 2, htde := 1, hrdf := 0 }
  ipr := { timer := 14, ssi1 := 12, ssi0 := 10, host := 8, codec := 6, irqbTrigger := 5, irqb := 3, irqaTrigger := 2,
           irqa := 0 }
  resetTXDE := true
  resetHRDF := false
  resetHTDE := true
  resetRXDF := false
  resetHCP := false
  resetHC := false
  resetHCR := 0x0000#16
  resetICR := 0x00#8

/-! ## The event word (30_encoding.md R60) -/

/-- E[34:33], the agent. -/
@[simp] abbrev evAgentLo : Nat := 33
/-- E[32], the direction: 0 read, 1 write. -/
@[simp] abbrev evDirBit : Nat := 32
/-- E[31:16], the address. -/
@[simp] abbrev evAddrLo : Nat := 16
/-- E[15:0], the data. -/
@[simp] abbrev evDataLo : Nat := 0

@[simp] abbrev agentHost : BitVec 2 := 0b00#2
@[simp] abbrev agentDsp : BitVec 2 := 0b01#2
@[simp] abbrev agentSystem : BitVec 2 := 0b10#2
/-- The agent code that spells no event (30_encoding.md R61, clause 1). -/
@[simp] abbrev agentNone : BitVec 2 := 0b11#2

/-! ## The HOST space (20_memory.md R41, 30_encoding.md R73) -/

@[simp] abbrev offICR : Byte := fixed.offICR
@[simp] abbrev offCVR : Byte := fixed.offCVR
@[simp] abbrev offISR : Byte := fixed.offISR
@[simp] abbrev offIVR : Byte := fixed.offIVR
@[simp] abbrev offUnused4 : Byte := fixed.offUnused4
@[simp] abbrev offRsvd5 : Byte := fixed.offRsvd5
@[simp] abbrev offTXH : Byte := fixed.offTXH
@[simp] abbrev offTXL : Byte := fixed.offTXL
@[simp] abbrev offFirstInvalid : Byte := fixed.offFirstInvalid

/-! ## The DSP space (20_memory.md R42, 30_encoding.md R74, 00_scope.md R7) -/

@[simp] abbrev dspBase : Word := fixed.dspBase
@[simp] abbrev addrPBC : Word := fixed.addrPBC
@[simp] abbrev addrHCR : Word := fixed.addrHCR
@[simp] abbrev addrBCR : Word := fixed.addrBCR
@[simp] abbrev addrIPR : Word := fixed.addrIPR
@[simp] abbrev addrPCD : Word := fixed.addrPCD
@[simp] abbrev addrHSR : Word := decided.addrHSR
@[simp] abbrev addrHTRX : Word := fixed.addrHTRX

/-! ## Entries of the backing store (10_state.md R23, 44_dsp_dispatcher.md R160) -/

/-- i = A - DSP_BASE, the backing-store entry of a DSP address. -/
@[simp] abbrev entryOf (a : Word) : Fin dspCount := ⟨(a - dspBase).toNat % dspCount, Nat.mod_lt _ (by decide)⟩

@[simp] abbrev idxPBC : Fin dspCount := entryOf addrPBC
@[simp] abbrev idxHCR : Fin dspCount := entryOf addrHCR
@[simp] abbrev idxBCR : Fin dspCount := entryOf addrBCR
@[simp] abbrev idxIPR : Fin dspCount := entryOf addrIPR
@[simp] abbrev idxPCD : Fin dspCount := entryOf addrPCD
@[simp] abbrev idxHSR : Fin dspCount := entryOf addrHSR
@[simp] abbrev idxHTRX : Fin dspCount := entryOf addrHTRX

/-! ## Constants of reads (00_scope.md R7) -/

@[simp] abbrev sent16 : Word := fixed.sent16
@[simp] abbrev sent8 : Byte := fixed.sent8
@[simp] abbrev hostRdInvalid : Byte := fixed.hostRdInvalid
@[simp] abbrev hostRdUnused4 : Byte := fixed.hostRdUnused4

/-! ## The bootstrap (00_scope.md R7, 43_bootstrap_loader.md R149, R150, R154) -/

@[simp] abbrev bootLimit : Nat := fixed.bootLimit
@[simp] abbrev abortTarget : Nat := fixed.abortTarget
@[simp] abbrev icrAbortBit : Nat := fixed.icrAbortBit

/-! ## Valid masks (00_scope.md R7) -/

@[simp] abbrev maskICR : Byte := decided.maskICR
@[simp] abbrev maskCVR : Byte := decided.maskCVR
@[simp] abbrev maskISR : Byte := decided.maskISR
@[simp] abbrev maskIVR : Byte := decided.maskIVR
@[simp] abbrev maskHCR : Word := decided.maskHCR
@[simp] abbrev maskHSR : Word := decided.maskHSR
@[simp] abbrev maskIPR : Word := decided.maskIPR
@[simp] abbrev maskPBC : Word := fixed.maskPBC

/-! ## Field positions: ICR (R63), CVR (R64), ISR (R65), HCR (R67), HSR (R68), IPR (R69) -/

@[simp] abbrev icrHF1 : Nat := decided.icr.hf1
@[simp] abbrev icrHF0 : Nat := decided.icr.hf0
@[simp] abbrev icrTREQ : Nat := decided.icr.treq
@[simp] abbrev icrRREQ : Nat := decided.icr.rreq

@[simp] abbrev cvrHC : Nat := decided.cvr.hc
@[simp] abbrev cvrHVLo : Nat := decided.cvr.hv
@[simp] abbrev cvrHVWidth : Nat := hvWidth

@[simp] abbrev isrHF3 : Nat := decided.isr.hf3
@[simp] abbrev isrHF2 : Nat := decided.isr.hf2
@[simp] abbrev isrTXDE : Nat := decided.isr.txde
@[simp] abbrev isrRXDF : Nat := decided.isr.rxdf

@[simp] abbrev hcrHF3 : Nat := decided.hcr.hf3
@[simp] abbrev hcrHF2 : Nat := decided.hcr.hf2
@[simp] abbrev hcrHCIE : Nat := decided.hcr.hcie
@[simp] abbrev hcrHTIE : Nat := decided.hcr.htie
@[simp] abbrev hcrHRIE : Nat := decided.hcr.hrie

@[simp] abbrev hsrHF1 : Nat := decided.hsr.hf1
@[simp] abbrev hsrHF0 : Nat := decided.hsr.hf0
@[simp] abbrev hsrHCP : Nat := decided.hsr.hcp
@[simp] abbrev hsrHTDE : Nat := decided.hsr.htde
@[simp] abbrev hsrHRDF : Nat := decided.hsr.hrdf

@[simp] abbrev iprTIMERLo : Nat := decided.ipr.timer
@[simp] abbrev iprSSI1Lo : Nat := decided.ipr.ssi1
@[simp] abbrev iprSSI0Lo : Nat := decided.ipr.ssi0
@[simp] abbrev iprHOSTLo : Nat := decided.ipr.host
@[simp] abbrev iprCODECLo : Nat := decided.ipr.codec
@[simp] abbrev iprIRQBTrigger : Nat := decided.ipr.irqbTrigger
@[simp] abbrev iprIRQBLo : Nat := decided.ipr.irqb
@[simp] abbrev iprIRQATrigger : Nat := decided.ipr.irqaTrigger
@[simp] abbrev iprIRQALo : Nat := decided.ipr.irqa

end Sys2Proof.Layout

namespace Sys2Proof

/-- A machine's whole configuration record (00_scope.md R7): the constants above and the machine's open choices. -/
def Cfg.ofOpen (o : Cfg.Open) : Cfg := { Layout.fixed, Layout.decided, o with }

/-- The configuration of a machine at State.reset (assumption logs 1 and 2). -/
def Cfg.atReset : Cfg := Cfg.ofOpen Cfg.Open.atReset

end Sys2Proof
end

