-- ==== Sys2Proof/Syntax.lean ====
section
/-! DEFINITION. The access events, one constructor for each mnemonic of spec/opcode_table.json (00_scope.md R5,
30_encoding.md R73 to R75). The operands of a constructor select among the rows of its mnemonic (assumption log 13). -/

namespace Sys2Proof

/-- An access event of the block. -/
inductive Instr where
  /-- HR.ICR: host read of offset 0x00 (45_host_port.md R187). -/
  | hrIcr
  /-- HR.CVR: host read of offset 0x01 (R188). -/
  | hrCvr
  /-- HR.ISR: host read of offset 0x02 (R189). -/
  | hrIsr
  /-- HR.IVR: host read of offset 0x03 (R190). -/
  | hrIvr
  /-- HR.UNUSED4: host read of offset 0x04 (R193). -/
  | hrUnused4
  /-- HR.RSVD5: host read of offset 0x05 (R194). -/
  | hrRsvd5
  /-- HR.RXH: host read of offset 0x06 (R191). -/
  | hrRxh
  /-- HR.RXL: host read of offset 0x07 (R192). -/
  | hrRxl
  /-- HR.INVALID: host read of an offset 0x08 to 0xff (R195). -/
  | hrInvalid (offset : Byte)
  /-- HW.ICR: host write of offset 0x00 (R196). -/
  | hwIcr (data : Byte)
  /-- HW.CVR: host write of offset 0x01 (R199). -/
  | hwCvr (data : Byte)
  /-- HW.ISR: host write of offset 0x02, discarded (R186). -/
  | hwIsr (data : Byte)
  /-- HW.IVR: host write of offset 0x03 (R200). -/
  | hwIvr (data : Byte)
  /-- HW.UNUSED4: host write of offset 0x04, discarded (R201). -/
  | hwUnused4 (data : Byte)
  /-- HW.RSVD5: host write of offset 0x05, discarded (R202). -/
  | hwRsvd5 (data : Byte)
  /-- HW.TXH: host write of offset 0x06 (R197). -/
  | hwTxh (data : Byte)
  /-- HW.TXL: host write of offset 0x07 (R198). -/
  | hwTxl (data : Byte)
  /-- HW.INVALID: host write of an offset 0x08 to 0xff, discarded (R203). -/
  | hwInvalid (offset data : Byte)
  /-- DR.PBC: DSP read of 0xffc0 (44_dsp_dispatcher.md R173). -/
  | drPbc
  /-- DR.HCR: DSP read of 0xffc4 (R162). -/
  | drHcr
  /-- DR.BCR: DSP read of 0xffde (R175). -/
  | drBcr
  /-- DR.IPR: DSP read of 0xffdf (R164). -/
  | drIpr
  /-- DR.PCD: DSP read of 0xffe3 (R177). -/
  | drPcd
  /-- DR.HSR: DSP read of 0xffe4 (R166). -/
  | drHsr
  /-- DR.HTRX: DSP read of 0xffe5 (R168). -/
  | drHtrx
  /-- DR.P: DSP read of one of the 57 unnamed addresses (R171). -/
  | drP (addr : Word)
  /-- DW.PBC: DSP write of 0xffc0 (R172). -/
  | dwPbc (data : Word)
  /-- DW.HCR: DSP write of 0xffc4 (R163). -/
  | dwHcr (data : Word)
  /-- DW.BCR: DSP write of 0xffde (R174). -/
  | dwBcr (data : Word)
  /-- DW.IPR: DSP write of 0xffdf (R165). -/
  | dwIpr (data : Word)
  /-- DW.PCD: DSP write of 0xffe3 (R176). -/
  | dwPcd (data : Word)
  /-- DW.HSR: DSP write of 0xffe4, discarded (R167). -/
  | dwHsr (data : Word)
  /-- DW.HTRX: DSP write of 0xffe5 (R169). -/
  | dwHtrx (data : Word)
  /-- DW.P: DSP write of one of the 57 unnamed addresses (R170). -/
  | dwP (addr data : Word)
  /-- RESET, the one SYSTEM event (70_reset_and_hazards.md R240). -/
  | reset
deriving DecidableEq, Repr

end Sys2Proof
end

