-- ==== Sys2Proof/WellFormed.lean ====
section
/-! DEFINITION. Which terms of Instr are events: the operands of the four range rows are in their ranges
(30_encoding.md R73, R74). -/

namespace Sys2Proof

/-- The address is one of the DSP_COUNT from DSP_BASE on, the block's window (20_memory.md R42). -/
def inWindow (a : Word) : Bool := decide ((a - Layout.dspBase).toNat < dspCount)

/-- The address has a row pair of its own (44_dsp_dispatcher.md R162 to R177). -/
def isNamedAddr (a : Word) : Bool :=
  a == Layout.addrPBC || a == Layout.addrHCR || a == Layout.addrBCR || a == Layout.addrIPR ||
  a == Layout.addrPCD || a == Layout.addrHSR || a == Layout.addrHTRX

/-- One of "the other 57 addresses" (44_dsp_dispatcher.md R170, R171). -/
def isPlainAddr (a : Word) : Bool := inWindow a && !isNamedAddr a

/-- An offset of the "any other offset" range (20_memory.md R41). -/
def isInvalidOffset (o : Byte) : Bool := Layout.offFirstInvalid.ule o

/-- The term is an event. -/
def Instr.wellFormed : Instr → Bool
  | .hrInvalid o => isInvalidOffset o
  | .hwInvalid o _ => isInvalidOffset o
  | .drP a => isPlainAddr a
  | .dwP a _ => isPlainAddr a
  | .hrIcr | .hrCvr | .hrIsr | .hrIvr | .hrUnused4 | .hrRsvd5 | .hrRxh | .hrRxl => true
  | .hwIcr _ | .hwCvr _ | .hwIsr _ | .hwIvr _ | .hwUnused4 _ | .hwRsvd5 _ | .hwTxh _ | .hwTxl _ => true
  | .drPbc | .drHcr | .drBcr | .drIpr | .drPcd | .drHsr | .drHtrx => true
  | .dwPbc _ | .dwHcr _ | .dwBcr _ | .dwIpr _ | .dwPcd _ | .dwHsr _ | .dwHtrx _ => true
  | .reset => true

end Sys2Proof
end

