-- ==== Sys2Proof/Decode.lean ====
section
/-! DEFINITION. The event word: its fields (30_encoding.md R60), which words are events (R61), the decode (R62, R73 to
R75), the encoder, and the rows of spec/opcode_table.json (R79). -/

namespace Sys2Proof

/-! ## Fields of the event word (R60) -/

/-- E[34:33]. -/
def evAgent (e : EventWord) : BitVec 2 := e.extractLsb' Layout.evAgentLo 2
/-- E[32]: true is a write. -/
def evWrite (e : EventWord) : Bool := e.getLsbD Layout.evDirBit
/-- E[31:16]. -/
def evAddr (e : EventWord) : Word := e.extractLsb' Layout.evAddrLo 16
/-- E[15:0]. -/
def evData (e : EventWord) : Word := e.extractLsb' Layout.evDataLo 16
/-- The host offset, E[23:16]. -/
def evOffset (e : EventWord) : Byte := (evAddr e).extractLsb' 0 8
/-- The host data, E[7:0]. -/
def evHostData (e : EventWord) : Byte := (evData e).extractLsb' 0 8

/-- The event word of an agent, direction, address and data (R60). -/
def eventWord (agent : BitVec 2) (write : Bool) (addr data : Word) : EventWord :=
  agent ++ BitVec.ofBool write ++ addr ++ data

/-- Why a word spells no event: the clause of R61 it breaks. -/
inductive NotEvent where
  /-- Clause 1: the agent is 0b11. -/
  | agentReserved
  /-- Clause 2: a SYSTEM word with a direction, address or data. -/
  | systemOperand
  /-- Clause 3: a HOST word with E[31:24] or E[15:8] not 0. -/
  | hostHighBits
  /-- Clause 4: a DSP address outside 0xffc0 to 0xffff. -/
  | dspOutsideWindow
  /-- Clause 5: a read with data. -/
  | readData
deriving DecidableEq, Repr

/-- The five clauses of R61, as they stand there. -/
def isEvent (e : EventWord) : Bool :=
  (evAgent e != Layout.agentNone) &&
  (evAgent e != Layout.agentSystem || (!evWrite e && evAddr e == 0 && evData e == 0)) &&
  (evAgent e != Layout.agentHost ||
    ((evAddr e).extractLsb' 8 8 == 0 && (evData e).extractLsb' 8 8 == 0)) &&
  (evAgent e != Layout.agentDsp || inWindow (evAddr e)) &&
  (evWrite e || evData e == 0)

/-! ## Decode -/

/-- The read column of the HOST decode (R73). -/
def decodeHostRead (o : Byte) : Instr :=
  if o = Layout.offICR then .hrIcr
  else if o = Layout.offCVR then .hrCvr
  else if o = Layout.offISR then .hrIsr
  else if o = Layout.offIVR then .hrIvr
  else if o = Layout.offUnused4 then .hrUnused4
  else if o = Layout.offRsvd5 then .hrRsvd5
  else if o = Layout.offTXH then .hrRxh
  else if o = Layout.offTXL then .hrRxl
  else .hrInvalid o

/-- The write column of the HOST decode (R73). -/
def decodeHostWrite (o b : Byte) : Instr :=
  if o = Layout.offICR then .hwIcr b
  else if o = Layout.offCVR then .hwCvr b
  else if o = Layout.offISR then .hwIsr b
  else if o = Layout.offIVR then .hwIvr b
  else if o = Layout.offUnused4 then .hwUnused4 b
  else if o = Layout.offRsvd5 then .hwRsvd5 b
  else if o = Layout.offTXH then .hwTxh b
  else if o = Layout.offTXL then .hwTxl b
  else .hwInvalid o b

/-- The read column of the DSP decode (R74). -/
def decodeDspRead (a : Word) : Instr :=
  if a = Layout.addrPBC then .drPbc
  else if a = Layout.addrHCR then .drHcr
  else if a = Layout.addrBCR then .drBcr
  else if a = Layout.addrIPR then .drIpr
  else if a = Layout.addrPCD then .drPcd
  else if a = Layout.addrHSR then .drHsr
  else if a = Layout.addrHTRX then .drHtrx
  else .drP a

/-- The write column of the DSP decode (R74). -/
def decodeDspWrite (a w : Word) : Instr :=
  if a = Layout.addrPBC then .dwPbc w
  else if a = Layout.addrHCR then .dwHcr w
  else if a = Layout.addrBCR then .dwBcr w
  else if a = Layout.addrIPR then .dwIpr w
  else if a = Layout.addrPCD then .dwPcd w
  else if a = Layout.addrHSR then .dwHsr w
  else if a = Layout.addrHTRX then .dwHtrx w
  else .dwP a w

/-- The decoder: total on 35-bit words, refusing by name the words that spell no event (R61, R62). -/
def decode (e : EventWord) : Except NotEvent Instr :=
  if evAgent e = Layout.agentNone then .error .agentReserved
  else if evAgent e = Layout.agentSystem then
    if evWrite e || evAddr e != 0 || evData e != 0 then .error .systemOperand else .ok .reset
  else if evAgent e = Layout.agentHost then
    if (evAddr e).extractLsb' 8 8 != 0 || (evData e).extractLsb' 8 8 != 0 then .error .hostHighBits
    else if evWrite e then .ok (decodeHostWrite (evOffset e) (evHostData e))
    else if evData e != 0 then .error .readData
    else .ok (decodeHostRead (evOffset e))
  else if !inWindow (evAddr e) then .error .dspOutsideWindow
  else if evWrite e then .ok (decodeDspWrite (evAddr e) (evData e))
  else if evData e != 0 then .error .readData
  else .ok (decodeDspRead (evAddr e))

/-! ## Encode -/

/-- A host read, 0x0_00<off>_0000 (R77). -/
def encodeHostRead (o : Byte) : EventWord := eventWord Layout.agentHost false (o.setWidth 16) 0
/-- A host write, 0x1_00<off>_00<byte> (R77). -/
def encodeHostWrite (o b : Byte) : EventWord := eventWord Layout.agentHost true (o.setWidth 16) (b.setWidth 16)
/-- A DSP read, 0x2_<addr>_0000 (R77). -/
def encodeDspRead (a : Word) : EventWord := eventWord Layout.agentDsp false a 0
/-- A DSP write, 0x3_<addr>_<word> (R77). -/
def encodeDspWrite (a w : Word) : EventWord := eventWord Layout.agentDsp true a w

/-- The event word of an event (R60, R73 to R75). -/
def encode : Instr → EventWord
  | .hrIcr => encodeHostRead Layout.offICR
  | .hrCvr => encodeHostRead Layout.offCVR
  | .hrIsr => encodeHostRead Layout.offISR
  | .hrIvr => encodeHostRead Layout.offIVR
  | .hrUnused4 => encodeHostRead Layout.offUnused4
  | .hrRsvd5 => encodeHostRead Layout.offRsvd5
  | .hrRxh => encodeHostRead Layout.offTXH
  | .hrRxl => encodeHostRead Layout.offTXL
  | .hrInvalid o => encodeHostRead o
  | .hwIcr b => encodeHostWrite Layout.offICR b
  | .hwCvr b => encodeHostWrite Layout.offCVR b
  | .hwIsr b => encodeHostWrite Layout.offISR b
  | .hwIvr b => encodeHostWrite Layout.offIVR b
  | .hwUnused4 b => encodeHostWrite Layout.offUnused4 b
  | .hwRsvd5 b => encodeHostWrite Layout.offRsvd5 b
  | .hwTxh b => encodeHostWrite Layout.offTXH b
  | .hwTxl b => encodeHostWrite Layout.offTXL b
  | .hwInvalid o b => encodeHostWrite o b
  | .drPbc => encodeDspRead Layout.addrPBC
  | .drHcr => encodeDspRead Layout.addrHCR
  | .drBcr => encodeDspRead Layout.addrBCR
  | .drIpr => encodeDspRead Layout.addrIPR
  | .drPcd => encodeDspRead Layout.addrPCD
  | .drHsr => encodeDspRead Layout.addrHSR
  | .drHtrx => encodeDspRead Layout.addrHTRX
  | .drP a => encodeDspRead a
  | .dwPbc w => encodeDspWrite Layout.addrPBC w
  | .dwHcr w => encodeDspWrite Layout.addrHCR w
  | .dwBcr w => encodeDspWrite Layout.addrBCR w
  | .dwIpr w => encodeDspWrite Layout.addrIPR w
  | .dwPcd w => encodeDspWrite Layout.addrPCD w
  | .dwHsr w => encodeDspWrite Layout.addrHSR w
  | .dwHtrx w => encodeDspWrite Layout.addrHTRX w
  | .dwP a w => encodeDspWrite a w
  | .reset => eventWord Layout.agentSystem false 0 0

/-! ## The opcode table (R79) -/

/-- The mnemonic of spec/opcode_table.json that names the event. -/
def Instr.mnemonic : Instr → String
  | .hrIcr => "HR.ICR" | .hrCvr => "HR.CVR" | .hrIsr => "HR.ISR" | .hrIvr => "HR.IVR"
  | .hrUnused4 => "HR.UNUSED4" | .hrRsvd5 => "HR.RSVD5" | .hrRxh => "HR.RXH" | .hrRxl => "HR.RXL"
  | .hrInvalid _ => "HR.INVALID"
  | .hwIcr _ => "HW.ICR" | .hwCvr _ => "HW.CVR" | .hwIsr _ => "HW.ISR" | .hwIvr _ => "HW.IVR"
  | .hwUnused4 _ => "HW.UNUSED4" | .hwRsvd5 _ => "HW.RSVD5" | .hwTxh _ => "HW.TXH" | .hwTxl _ => "HW.TXL"
  | .hwInvalid _ _ => "HW.INVALID"
  | .drPbc => "DR.PBC" | .drHcr => "DR.HCR" | .drBcr => "DR.BCR" | .drIpr => "DR.IPR" | .drPcd => "DR.PCD"
  | .drHsr => "DR.HSR" | .drHtrx => "DR.HTRX" | .drP _ => "DR.P"
  | .dwPbc _ => "DW.PBC" | .dwHcr _ => "DW.HCR" | .dwBcr _ => "DW.BCR" | .dwIpr _ => "DW.IPR"
  | .dwPcd _ => "DW.PCD" | .dwHsr _ => "DW.HSR" | .dwHtrx _ => "DW.HTRX" | .dwP _ _ => "DW.P"
  | .reset => "RESET"

/-- A row of spec/opcode_table.json: it selects the words E with E & mask = pattern (R79). -/
structure OpRow where
  mnemonic : String
  pattern : EventWord
  mask : EventWord
deriving DecidableEq, Repr

/-- The row selects the word. -/
def OpRow.selects (r : OpRow) (e : EventWord) : Bool := e &&& r.mask == r.pattern

/-- The mask of a row all of whose bits are fixed (a read row, RESET). -/
def fullMask : EventWord := BitVec.allOnes 35
/-- The mask of a host write row: every bit but the host data, E[7:0]. -/
def hostWriteMask : EventWord := fullMask &&& ~~~((BitVec.allOnes 8).setWidth 35 <<< Layout.evDataLo)
/-- The mask of a DSP write row: every bit but the data, E[15:0]. -/
def dspWriteMask : EventWord := fullMask &&& ~~~((BitVec.allOnes 16).setWidth 35 <<< Layout.evDataLo)

/-- The named host offsets, with the second part of their read and of their write mnemonic (R73). -/
def hostNames : List (Byte × String × String) :=
  [(Layout.offICR, "ICR", "ICR"), (Layout.offCVR, "CVR", "CVR"), (Layout.offISR, "ISR", "ISR"),
   (Layout.offIVR, "IVR", "IVR"), (Layout.offUnused4, "UNUSED4", "UNUSED4"), (Layout.offRsvd5, "RSVD5", "RSVD5"),
   (Layout.offTXH, "RXH", "TXH"), (Layout.offTXL, "RXL", "TXL")]

/-- The read and the write row of each named host offset. -/
def hostRows : List OpRow :=
  hostNames.flatMap (fun p =>
    [⟨"HR." ++ p.2.1, encodeHostRead p.1, fullMask⟩, ⟨"HW." ++ p.2.2, encodeHostWrite p.1 0, hostWriteMask⟩])

/-- The offsets 2^k to 2^(k+1) - 1 that make up the range from offFirstInvalid to 0xff, by k, their highest set bit. -/
def hostInvalidBits : List Nat := (List.range 8).filter (fun k => decide (Layout.offFirstInvalid.toNat ≤ 2 ^ k))

/-- The bits below bit k of the host offset, which a row of the invalid range leaves free. -/
def freeOffsetBits (k : Nat) : EventWord := BitVec.ofNat 35 (2 ^ k - 1) <<< Layout.evAddrLo

/-- The row pair of each part of the host range from offFirstInvalid to 0xff. -/
def hostInvalidRows : List OpRow :=
  hostInvalidBits.flatMap (fun k =>
    [⟨"HR.INVALID", encodeHostRead (BitVec.ofNat 8 (2 ^ k)), fullMask &&& ~~~(freeOffsetBits k)⟩,
     ⟨"HW.INVALID", encodeHostWrite (BitVec.ofNat 8 (2 ^ k)) 0, hostWriteMask &&& ~~~(freeOffsetBits k)⟩])

/-- The addresses of the window, in order. -/
def dspAddrs : List Word := (List.range dspCount).map (fun k => Layout.dspBase + BitVec.ofNat 16 k)

/-- The mnemonic's second part for the rows of a DSP address (R74). -/
def dspRowName (a : Word) : String :=
  (List.lookup a [(Layout.addrPBC, "PBC"), (Layout.addrHCR, "HCR"), (Layout.addrBCR, "BCR"), (Layout.addrIPR, "IPR"),
    (Layout.addrPCD, "PCD"), (Layout.addrHSR, "HSR"), (Layout.addrHTRX, "HTRX")]).getD "P"

/-- The read rows of the DSP window, one for each address. -/
def dspReadRows : List OpRow :=
  dspAddrs.map (fun a => ⟨"DR." ++ dspRowName a, encodeDspRead a, fullMask⟩)

/-- The write rows of the DSP window, one for each address. -/
def dspWriteRows : List OpRow :=
  dspAddrs.map (fun a => ⟨"DW." ++ dspRowName a, encodeDspWrite a 0, dspWriteMask⟩)

/-- The 155 rows of spec/opcode_table.json (R79); their order carries no meaning. -/
def opcodeRows : List OpRow :=
  hostRows ++ hostInvalidRows ++ dspReadRows ++ dspWriteRows ++ [⟨"RESET", encode .reset, fullMask⟩]

/-! ## The host's probe -/

/-- The event word an opcode-table row's bits stand for: the low nbits bits of w, every bit above them 0. A number
that does not fit 35 bits becomes a word of agent 0b11, which spells no event (R61; assumption log 19). -/
def tableWord (nbits w : Nat) : EventWord :=
  if w % 2 ^ nbits < 2 ^ 35 then BitVec.ofNat 35 (w % 2 ^ nbits) else BitVec.allOnes 35

/-- What the decoder reads from an opcode-table row's bits. -/
def decodeTableWord (nbits w : Nat) : Option Instr := (decode (tableWord nbits w)).toOption

end Sys2Proof
end

