-- ==== Sys2Proof/Machine/BitFields.lean ====
section
/-! DEFINITION. Bit fields of a register: REG.F <- b (00_scope.md R8). -/

namespace Sys2Proof.Machine

/-- The bits lo to lo + n - 1 of a w-bit register, all ones there and zero elsewhere. -/
def fieldMask (w lo n : Nat) : BitVec w := (BitVec.allOnes n).setWidth w <<< lo

/-- REG.F <- x for a field of n bits at lo: exactly those bits are replaced (00_scope.md R8). -/
def putField {w n : Nat} (r : BitVec w) (lo : Nat) (x : BitVec n) : BitVec w :=
  (r &&& ~~~(fieldMask w lo n)) ||| (x.setWidth w <<< lo)

/-- REG.F <- b for a one-bit field at k. -/
def putBit {w : Nat} (r : BitVec w) (k : Nat) (b : Bool) : BitVec w := putField r k (BitVec.ofBool b)

end Sys2Proof.Machine
end

