-- ==== Sys2Proof/Machine/ResetTable.lean ====
section
/-! DEFINITION. The three registers whose value after reset the table 10_state.md R34 gives field by field. The other
lines of the table are fields of Cfg as they stand. -/

namespace Sys2Proof.Machine

/-- CVR after reset: HC is decided, HV is RESET_HV (10_state.md R34). -/
def resetCVR (c : Cfg) : Byte := putField (putBit 0 c.cvr.hc c.resetHC) c.cvr.hv c.resetHv

/-- ISR after reset: its own two flags, and the mirrors of HCR.HF3 and HCR.HF2 (10_state.md R34, R28). -/
def resetISR (c : Cfg) : Byte :=
  putBit (putBit (putBit (putBit 0 c.isr.hf3 (c.resetHCR.getLsbD c.hcr.hf3))
    c.isr.hf2 (c.resetHCR.getLsbD c.hcr.hf2)) c.isr.txde c.resetTXDE) c.isr.rxdf c.resetRXDF

/-- HSR after reset: its own three flags, and the mirrors of ICR.HF1 and ICR.HF0 (10_state.md R34, R28). -/
def resetHSR (c : Cfg) : Word :=
  putBit (putBit (putBit (putBit (putBit 0 c.hsr.hf1 (c.resetICR.getLsbD c.icr.hf1))
    c.hsr.hf0 (c.resetICR.getLsbD c.icr.hf0)) c.hsr.hcp c.resetHCP) c.hsr.htde c.resetHTDE) c.hsr.hrdf c.resetHRDF

end Sys2Proof.Machine
end

