-- ==== Sys2Proof/Machine/State.lean ====
section
/-! DEFINITION. The state of the block (10_state.md), the outputs of an event (00_scope.md R6, R8), the reasons a step
can stop, and the state after reset (10_state.md R34). -/

namespace Sys2Proof.Machine

/-- The tags of the IRQ port (00_scope.md R6, 60_exceptions.md R220). -/
inductive IrqTag where
  | hostCommand
  | hostTransmitData
  | hostReceiveData
deriving DecidableEq, Repr

/-- The register a diagnostic names (60_exceptions.md R216, R217). -/
inductive RegName where
  | icr
  | cvr
  | isr
  | hcr
  | hsr
  | pbc
  | bcr
  | pcd
  /-- Entry i of the backing store. -/
  | p (i : Fin dspCount)
deriving DecidableEq, Repr

/-- A diagnostic record (60_exceptions.md R216, R217, R219; assumption log 8). No rule reads one (00_scope.md R9). -/
inductive Diag where
  /-- Policy 1: the offending bits of a write, zero-extended to 16. -/
  | reservedBits (reg : RegName) (bits : Word)
  | readOnly (reg : RegName)
  | unusedOffset (offset : Byte)
  | reservedOffset (offset : Byte)
  | invalidOffset (offset : Byte)
  | reservedAddress (addr : Word)
deriving DecidableEq, Repr

/-- One output of an event (00_scope.md R6). -/
inductive Output where
  /-- IRQ: one interrupt request, a tag and nothing else (60_exceptions.md R221). -/
  | irq (tag : IrqTag)
  /-- PORTC_OUT: the stored Port C data (40_register_file.md R102). -/
  | portC (value : Word)
  /-- PC_SET: the program address forced on the external core (43_bootstrap_loader.md R150, R154). -/
  | pcSet (target : Nat)
  /-- PMEM: the program word at an offset as a bootstrap write leaves it, high and low byte; none for a lane that
  nothing has written (assumption log 9). -/
  | pmem (offset : Nat) (high low : Option Byte)
  /-- DIAG (assumption log 8). -/
  | diag (d : Diag)
deriving DecidableEq, Repr

/-- The result of a read event: 8 bits for the host, 16 bits for the DSP (00_scope.md R8). -/
inductive ReadResult where
  | byte (value : Byte)
  | word (value : Word)
deriving DecidableEq, Repr

/-- Program memory as byte lanes: lane 2k is bits 15 to 8 of word k, lane 2k + 1 its bits 7 to 0. Addresses rise
strictly; an unlisted lane has no value (10_state.md R26; assumption log 9). -/
abbrev Memory := List Host.Cell

/-- The machine: the record HI of 10_state.md R10, the program memory it writes (R26), the OPEN part of its
configuration (00_scope.md R7), and the model's own record of the event stream. -/
structure State where
  /-- Interrupt Control Register (10_state.md R11). -/
  icr : Byte
  /-- Command Vector Register (R12). -/
  cvr : Byte
  /-- Interrupt Status Register (R13). -/
  isr : Byte
  /-- Interrupt Vector Register (R14). -/
  ivr : Byte
  /-- Host transmit byte, high (R15). -/
  txh : Byte
  /-- Host transmit byte, low (R15). -/
  txl : Byte
  /-- Host receive byte, high (R16). -/
  rxh : Byte
  /-- Host receive byte, low (R16). -/
  rxl : Byte
  /-- Host Control Register (R17). -/
  hcr : Word
  /-- Host Status Register (R18). -/
  hsr : Word
  /-- DSP transmit word (R19). -/
  htx : Word
  /-- DSP receive word (R20). -/
  hrx : Word
  /-- Interrupt Priority Register (R21). -/
  ipr : Word
  /-- The peripheral backing store (R23). Entries 0x04, 0x1f, 0x24 and 0x25 hold nothing: HCR, IPR, HSR, HTX and HRX
  have fields of their own (assumption log 12). -/
  p : Vector Word dspCount
  /-- BOOT.mode (R24). -/
  bootMode : BootMode
  /-- BOOT.offset, 0 to 0x800 (R24). -/
  bootOffset : Nat
  /-- Program memory, external to the block (R26). -/
  pmem : Memory
  /-- The OPEN fields of the machine's Cfg (00_scope.md R7), which no event changes. -/
  cfg : Cfg.Open
  /-- The model's own: how many free values have been used (assumption log 4). -/
  freeCount : Nat
  /-- The model's own: the event words still to arrive, in the total order (20_memory.md R51; assumption log 5). -/
  queue : List EventWord
  /-- The model's own: what the latest event returned, if it was a read (00_scope.md R8; assumption log 7). -/
  result : Option ReadResult
  /-- The model's own: the outputs of the latest event, in order (10_state.md R27; assumption log 7). -/
  outs : List Output
deriving DecidableEq, Repr

/-- The machine's whole configuration record. -/
@[simp] abbrev State.config (s : State) : Cfg := Cfg.ofOpen s.cfg

/-- Why a step can stop with a fault. No event faults (60_exceptions.md R215). -/
inductive Fault where
  /-- Raised by a bootstrap write when the mode is ACTIVE and the offset is 0x800 or more, a state that
  43_bootstrap_loader.md R152 excludes and no run from reset reaches: program memory has no such word. Safe
  (assumption log 10). -/
  | pmemOutsideWindow
deriving DecidableEq, Repr

/-- Why a step can refuse. -/
inductive Refusal where
  /-- Raised by an arm of exec that has no meaning yet; no arm is left so. Safe. -/
  | notModelled (mnemonic : String)
  /-- Raised by step when the arriving word spells no event (30_encoding.md R61). Safe (assumption log 11). -/
  | notAnEvent (word : EventWord) (why : NotEvent)
  /-- Raised by a meaning whose operand is not one of its row's: an offset below 0x08, or an address that is named or
  outside the window (44_dsp_dispatcher.md R161). The decoder yields no such term. Safe (assumption log 11). -/
  | illFormed (mnemonic : String)
deriving DecidableEq, Repr

/-- The machine right after its first RESET (10_state.md R34, 70_reset_and_hazards.md R241; assumption logs 1, 2, 3
and 17): the spec's values; the six data registers it leaves unspecified at 0; no event arrived yet. -/
def State.reset : State where
  icr := Cfg.atReset.resetICR
  cvr := resetCVR Cfg.atReset
  isr := resetISR Cfg.atReset
  ivr := Cfg.atReset.resetIvr
  txh := 0x00
  txl := 0x00
  rxh := 0x00
  rxl := 0x00
  hcr := Cfg.atReset.resetHCR
  hsr := resetHSR Cfg.atReset
  htx := 0x0000
  hrx := 0x0000
  ipr := Cfg.atReset.resetIpr
  p := Cfg.atReset.resetP
  bootMode := Cfg.atReset.bootAtReset
  bootOffset := Cfg.atReset.resetBootOffset
  pmem := []
  cfg := Cfg.Open.atReset
  freeCount := 0
  queue := []
  result := none
  outs := []

end Sys2Proof.Machine
end

