-- ==== Sys2Proof/Machine/Operands.lean ====
section
/-! DEFINITION. The assembly of words from bytes (20_memory.md R44, 30_encoding.md R72), backing-store indices
(44_dsp_dispatcher.md R160) and valid masks (00_scope.md R7, 30_encoding.md R70). -/

namespace Sys2Proof.Machine

/-- The word whose high byte and low byte are given (20_memory.md R44). -/
def joinBytes (high low : Byte) : Word := high ++ low
/-- Bits 15 to 8 (20_memory.md R44). -/
def highByte (w : Word) : Byte := w.extractLsb' 8 8
/-- Bits 7 to 0 (20_memory.md R44). -/
def lowByte (w : Word) : Byte := w.extractLsb' 0 8

/-- i = A - 0xffc0, the backing-store index of a DSP address (44_dsp_dispatcher.md R160). -/
def dspIndex (a : Word) : Fin dspCount := Layout.entryOf a

/-- The bits of v outside a valid mask (40_register_file.md R82). -/
def outside {w : Nat} (mask v : BitVec w) : BitVec w := v &&& ~~~mask

/-- A backing-store entry with no storage: its address has a register of its own (10_state.md R23). -/
def isRegisterEntry (i : Fin dspCount) : Bool :=
  i == Layout.idxHCR || i == Layout.idxIPR || i == Layout.idxHSR || i == Layout.idxHTRX

/-- The bits of entry i that can be 1 (10_state.md R23, R30): the masks of the three named registers, none for an
entry without storage, the mask of a Plain entry, and every bit for a Discard entry (whose reset value is free). -/
def validMask (c : Cfg.Open) (i : Fin dspCount) : Word :=
  if i = Layout.idxPBC then Layout.maskPBC
  else if i = Layout.idxBCR then c.maskBcr
  else if i = Layout.idxPCD then c.maskPcd
  else if isRegisterEntry i then 0
  else match c.dspMap.get i with
    | .plain m => m
    | .discard => BitVec.allOnes 16

end Sys2Proof.Machine
end

