-- ==== Sys2Proof/Machine/Ops.lean ====
section
/-! DEFINITION. The operations over program memory and the outputs every event is built from: the byte lanes of PMEM
(20_memory.md R43, R44), `emit` and `return` (00_scope.md R8), raising an interrupt request (60_exceptions.md R220 to
R227: the block's whole part of an exception; it takes none and returns from none), and the arrival of an event. -/

namespace Sys2Proof.Machine

/-! ## Program memory -/

/-- The byte in a lane, if one has been written. -/
def Memory.read : Memory → Nat → Option Byte
  | [], _ => none
  | (k, b) :: rest, a => if a = k then some b else Memory.read rest a

/-- Store a byte in a lane, in the canonical form. -/
def Memory.write : Memory → Nat → Byte → Memory
  | [], a, v => [(a, v)]
  | (k, b) :: rest, a, v =>
    if a < k then (a, v) :: (k, b) :: rest
    else if a = k then (a, v) :: rest
    else (k, b) :: Memory.write rest a v

/-- Every listed lane lies above the bound, and the lanes rise strictly. -/
def Memory.risesFrom : Nat → Memory → Bool
  | _, [] => true
  | lo, (k, _) :: rest => decide (lo ≤ k) && Memory.risesFrom (k + 1) rest

/-- The canonical form: addresses strictly rising. An unlisted lane has no value, so no entry can equal one. -/
def Memory.wf (m : Memory) : Bool := Memory.risesFrom 0 m

/-- Every listed lane is one of the 4096 of the window 0 to 0x7ff (20_memory.md R43). -/
def Memory.inWindow (m : Memory) : Bool := m.all (fun c => decide (c.1 < 2 * Layout.bootLimit))

/-- The lane of bits 15 to 8 of the word at an offset. -/
def laneHigh (off : Nat) : Nat := 2 * off
/-- The lane of bits 7 to 0 of the word at an offset. -/
def laneLow (off : Nat) : Nat := 2 * off + 1

/-! ## Outputs and results -/

/-- `emit`: outputs are ordered as they are emitted (00_scope.md R8). -/
def emit (o : Output) (s : State) : State := { s with outs := s.outs ++ [o] }

/-- `return v` of a read event (00_scope.md R8). -/
def withResult (r : ReadResult) (s : State) : State := { s with result := some r }

/-- Raise an interrupt request when the flag is being set and its enable is on: the shared second step of every coupled
setter (42_handshake_engine.md R132). It consults nothing else, IPR least of all (60_exceptions.md R223). -/
def raiseIf (set enable : Bool) (tag : IrqTag) (s : State) : State :=
  if set && enable then emit (.irq tag) s else s

/-- The diagnostic of policy 1, when the data has a bit outside the valid mask (40_register_file.md R82). -/
def diagReserved {w : Nat} (reg : RegName) (mask v : BitVec w) (s : State) : State :=
  if outside mask v = 0 then s else emit (.diag (.reservedBits reg ((outside mask v).setWidth 16))) s

/-- Write one byte lane of the program word at the current offset, keeping the other lane, and put the word on PMEM
(43_bootstrap_loader.md R147, R148). -/
def writeLane (lane : Nat) (d : Byte) (s : State) : State :=
  let m := Memory.write s.pmem lane d
  emit (.pmem s.bootOffset (Memory.read m (laneHigh s.bootOffset)) (Memory.read m (laneLow s.bootOffset)))
    { s with pmem := m }

/-! ## The backing store -/

/-- P[i] (00_scope.md R8). -/
def readP (i : Fin dspCount) (s : State) : Word := s.p.get i

/-- P[i] <- v (00_scope.md R8). -/
def writeP (i : Fin dspCount) (v : Word) (s : State) : State := { s with p := s.p.set i v }

/-! ## Arrival of an event -/

/-- The event at the head of the queue arrives: it leaves the queue, and the record of the latest event starts anew
(20_memory.md R51; assumption logs 5 and 7). -/
def arrive (rest : List EventWord) (s : State) : State :=
  { s with queue := rest, result := none, outs := [] }

end Sys2Proof.Machine
end

