-- ==== Sys2Proof/Machine/Flags.lean ====
section
/-! DEFINITION. The flags of 10_state.md R22: reading each, the plain setters of 40_register_file.md (R85, R86, R89 to
R91, R93 to R97), and the bare stores on which the coupled setters of 42_handshake_engine.md are built. No arithmetic
sets a flag. -/

namespace Sys2Proof.Machine

/-! ## Reading a flag -/

/-- ISR.TXDE. -/
def State.txde (s : State) : Bool := s.isr.getLsbD Layout.isrTXDE
/-- ISR.RXDF. -/
def State.rxdf (s : State) : Bool := s.isr.getLsbD Layout.isrRXDF
/-- HSR.HTDE. -/
def State.htde (s : State) : Bool := s.hsr.getLsbD Layout.hsrHTDE
/-- HSR.HRDF. -/
def State.hrdf (s : State) : Bool := s.hsr.getLsbD Layout.hsrHRDF
/-- HSR.HCP. -/
def State.hcp (s : State) : Bool := s.hsr.getLsbD Layout.hsrHCP
/-- CVR.HC. -/
def State.hc (s : State) : Bool := s.cvr.getLsbD Layout.cvrHC
/-- HCR.HCIE. -/
def State.hcie (s : State) : Bool := s.hcr.getLsbD Layout.hcrHCIE
/-- HCR.HTIE. -/
def State.htie (s : State) : Bool := s.hcr.getLsbD Layout.hcrHTIE
/-- HCR.HRIE. -/
def State.hrie (s : State) : Bool := s.hcr.getLsbD Layout.hcrHRIE

/-! ## Plain setters with a mirror -/

/-- 40_register_file.md R85. -/
def setHF1 (b : Bool) (s : State) : State :=
  { s with icr := putBit s.icr Layout.icrHF1 b, hsr := putBit s.hsr Layout.hsrHF1 b }
/-- 40_register_file.md R86. -/
def setHF0 (b : Bool) (s : State) : State :=
  { s with icr := putBit s.icr Layout.icrHF0 b, hsr := putBit s.hsr Layout.hsrHF0 b }
/-- 40_register_file.md R93. -/
def setHF3 (b : Bool) (s : State) : State :=
  { s with hcr := putBit s.hcr Layout.hcrHF3 b, isr := putBit s.isr Layout.isrHF3 b }
/-- 40_register_file.md R94. -/
def setHF2 (b : Bool) (s : State) : State :=
  { s with hcr := putBit s.hcr Layout.hcrHF2 b, isr := putBit s.isr Layout.isrHF2 b }

/-! ## Plain setters without one -/

/-- 40_register_file.md R90. -/
def setTREQ (b : Bool) (s : State) : State := { s with icr := putBit s.icr Layout.icrTREQ b }
/-- 40_register_file.md R91. -/
def setRREQ (b : Bool) (s : State) : State := { s with icr := putBit s.icr Layout.icrRREQ b }
/-- 40_register_file.md R89. -/
def setHV (x : BitVec hvWidth) (s : State) : State := { s with cvr := putField s.cvr Layout.cvrHVLo x }
/-- 40_register_file.md R95. -/
def setHCIE (b : Bool) (s : State) : State := { s with hcr := putBit s.hcr Layout.hcrHCIE b }
/-- 40_register_file.md R96. -/
def setHTIE (b : Bool) (s : State) : State := { s with hcr := putBit s.hcr Layout.hcrHTIE b }
/-- 40_register_file.md R97. -/
def setHRIE (b : Bool) (s : State) : State := { s with hcr := putBit s.hcr Layout.hcrHRIE b }

/-! ## Bare stores of the coupled flags: step 1 of 42_handshake_engine.md R132 -/

/-- ISR.TXDE <- b. -/
def storeTXDE (b : Bool) (s : State) : State := { s with isr := putBit s.isr Layout.isrTXDE b }
/-- ISR.RXDF <- b. -/
def storeRXDF (b : Bool) (s : State) : State := { s with isr := putBit s.isr Layout.isrRXDF b }
/-- HSR.HTDE <- b. -/
def storeHTDE (b : Bool) (s : State) : State := { s with hsr := putBit s.hsr Layout.hsrHTDE b }
/-- HSR.HRDF <- b. -/
def storeHRDF (b : Bool) (s : State) : State := { s with hsr := putBit s.hsr Layout.hsrHRDF b }
/-- HSR.HCP <- b. -/
def storeHCP (b : Bool) (s : State) : State := { s with hsr := putBit s.hsr Layout.hsrHCP b }
/-- CVR.HC <- b, the first line of 40_register_file.md R88. -/
def storeHC (b : Bool) (s : State) : State := { s with cvr := putBit s.cvr Layout.cvrHC b }

end Sys2Proof.Machine
end

