-- ==== Sys2Proof/Machine/Handshake.lean ====
section
/-! DEFINITION. The Handshake Engine (42_handshake_engine.md): the five coupled setters R125 to R129 in the common shape
of R132 and the two transfers R130, R131. A setter called with 1 never transfers and a transfer calls setters with 1
only (R133), so the rules' mutual calls are cut at the setters with 1, which stand first (assumption log 20;
Laws/Handshake.lean shows that the setters below answer the same when called with 1). -/

namespace Sys2Proof.Machine

/-! ## Setting a flag to 1: store, then the request -/

/-- set_TXDE(1) (R128): no request is attached to TXDE. -/
def raiseTXDE (s : State) : State := storeTXDE true s
/-- set_RXDF(1) (R129): no request is attached to RXDF. -/
def raiseRXDF (s : State) : State := storeRXDF true s
/-- set_HTDE(1) (R126). -/
def raiseHTDE (s : State) : State := raiseIf true s.htie .hostTransmitData (storeHTDE true s)
/-- set_HRDF(1) (R127). -/
def raiseHRDF (s : State) : State := raiseIf true s.hrie .hostReceiveData (storeHRDF true s)

/-! ## The transfers -/

/-- xfer_host_to_dsp (R130). -/
def xferHostToDsp (s : State) : State :=
  raiseHRDF (raiseTXDE { s with hrx := joinBytes s.txh s.txl })

/-- xfer_dsp_to_host (R131). -/
def xferDspToHost (s : State) : State :=
  raiseHTDE (raiseRXDF { s with rxh := highByte s.htx, rxl := lowByte s.htx })

/-! ## The coupled setters -/

/-- set_HCP(b) (R125). -/
def setHCP (b : Bool) (s : State) : State := raiseIf b s.hcie .hostCommand (storeHCP b s)

/-- set_HTDE(b) (R126). -/
def setHTDE (b : Bool) (s : State) : State :=
  if b then raiseHTDE s
  else if s.rxdf then storeHTDE false s
  else xferDspToHost (storeHTDE false s)

/-- set_HRDF(b) (R127). -/
def setHRDF (b : Bool) (s : State) : State :=
  if b then raiseHRDF s
  else if s.txde then storeHRDF false s
  else xferHostToDsp (storeHRDF false s)

/-- set_TXDE(b) (R128). -/
def setTXDE (b : Bool) (s : State) : State :=
  if b then raiseTXDE s
  else if s.hrdf then storeTXDE false s
  else xferHostToDsp (storeTXDE false s)

/-- set_RXDF(b) (R129). -/
def setRXDF (b : Bool) (s : State) : State :=
  if b then raiseRXDF s
  else if s.htde then storeRXDF false s
  else xferDspToHost (storeRXDF false s)

end Sys2Proof.Machine
end

