-- ==== Sys2Proof/Machine/RegisterFile.lean ====
section
/-! DEFINITION. The Register File's register-level sets (40_register_file.md R80 to R103): the reserved-bit diagnostic,
then the field setters from the most significant field down (R83). -/

namespace Sys2Proof.Machine

/-- ICR_set (R84). -/
def icrSet (v : Byte) (s : State) : State :=
  setRREQ (v.getLsbD Layout.icrRREQ)
    (setTREQ (v.getLsbD Layout.icrTREQ)
      (setHF0 (v.getLsbD Layout.icrHF0)
        (setHF1 (v.getLsbD Layout.icrHF1)
          (diagReserved .icr Layout.maskICR v s))))

/-- set_HC (R88). -/
def setHC (b : Bool) (s : State) : State := setHCP b (storeHC b s)

/-- CVR_set (R87). -/
def cvrSet (v : Byte) (s : State) : State :=
  setHV (v.extractLsb' Layout.cvrHVLo Layout.cvrHVWidth)
    (setHC (v.getLsbD Layout.cvrHC)
      (diagReserved .cvr Layout.maskCVR v s))

/-- HCR_set (R92). -/
def hcrSet (v : Word) (s : State) : State :=
  setHRIE (v.getLsbD Layout.hcrHRIE)
    (setHTIE (v.getLsbD Layout.hcrHTIE)
      (setHCIE (v.getLsbD Layout.hcrHCIE)
        (setHF2 (v.getLsbD Layout.hcrHF2)
          (setHF3 (v.getLsbD Layout.hcrHF3)
            (diagReserved .hcr Layout.maskHCR v s)))))

/-- IVR_set (R98): all 8 bits are valid. -/
def ivrSet (v : Byte) (s : State) : State := { s with ivr := v &&& Layout.maskIVR }

/-- IPR_set (R99): all 16 bits are valid. -/
def iprSet (v : Word) (s : State) : State := { s with ipr := v &&& Layout.maskIPR }

/-- P_set(i, v) under mask m, naming the register in the diagnostic (R103; the shared shape of R100 to R102). -/
def pSet (reg : RegName) (i : Fin dspCount) (m v : Word) (s : State) : State :=
  writeP i (v &&& m) (diagReserved reg m v s)

/-- PBC_set (R100). -/
def pbcSet (v : Word) (s : State) : State := pSet .pbc Layout.idxPBC Layout.maskPBC v s

/-- BCR_set (R101). -/
def bcrSet (v : Word) (s : State) : State := pSet .bcr Layout.idxBCR s.cfg.maskBcr v s

/-- PCD_set (R102): the output carries the stored value and is emitted on every write. -/
def pcdSet (v : Word) (s : State) : State :=
  emit (.portC (v &&& s.cfg.maskPcd)) (pSet .pcd Layout.idxPCD s.cfg.maskPcd v s)

end Sys2Proof.Machine
end

