-- ==== Sys2Proof/Machine/Bootstrap.lean ====
section
/-! DEFINITION. The Bootstrap Loader's micro-operations (43_bootstrap_loader.md R147 to R150). -/

namespace Sys2Proof.Machine

/-- What an event answers. -/
abbrev Answer := Host.Outcome State Fault Refusal

/-- boot_write_high (R147): the offset does not advance. -/
def bootWriteHigh (d : Byte) (s : State) : Answer :=
  if s.bootOffset < Layout.bootLimit then .next (writeLane (laneHigh s.bootOffset) d s)
  else .fault .pmemOutsideWindow

/-- The advance of boot_write_low (R148), and the silent completion at 0x800 (R149). -/
def bootAdvance (s : State) : State :=
  { s with
    bootOffset := s.bootOffset + 1
    bootMode := if s.bootOffset + 1 = Layout.bootLimit then .off else s.bootMode }

/-- boot_write_low (R148). -/
def bootWriteLow (d : Byte) (s : State) : Answer :=
  if s.bootOffset < Layout.bootLimit then .next (bootAdvance (writeLane (laneLow s.bootOffset) d s))
  else .fault .pmemOutsideWindow

/-- boot_abort (R150). -/
def bootAbort (s : State) : State :=
  emit (.pcSet Layout.abortTarget)
    { (if s.cfg.abortLatchesHf0 then setHF0 true s else s) with bootMode := .off }

end Sys2Proof.Machine
end

