-- ==== Sys2Proof/Machine/DspPort.lean ====
section
/-! DEFINITION. The meanings of the DSP-side events (44_dsp_dispatcher.md). -/

namespace Sys2Proof.Machine

/-! ## DSP reads -/

/-- DR.PBC (R173). -/
def execDrPbc (s : State) : Answer := .next (withResult (.word (readP Layout.idxPBC s)) s)

/-- DR.HCR (R162). -/
def execDrHcr (s : State) : Answer := .next (withResult (.word s.hcr) s)

/-- DR.BCR (R175). -/
def execDrBcr (s : State) : Answer := .next (withResult (.word (readP Layout.idxBCR s)) s)

/-- DR.IPR (R164). -/
def execDrIpr (s : State) : Answer := .next (withResult (.word s.ipr) s)

/-- DR.PCD (R177): the stored value, not a pin level. -/
def execDrPcd (s : State) : Answer := .next (withResult (.word (readP Layout.idxPCD s)) s)

/-- DR.HSR (R166): reading the status clears nothing. -/
def execDrHsr (s : State) : Answer := .next (withResult (.word s.hsr) s)

/-- DR.HTRX (R168): gated by HRDF; it consumes the word. The value is taken before the flag is cleared. -/
def execDrHtrx (s : State) : Answer :=
  .next (if s.hrdf then withResult (.word s.hrx) (setHRDF false s) else withResult (.word Layout.sent16) s)

/-- DR.P (R171): the raw backing-store value, whatever the class of the address. -/
def execDrP (addr : Word) (s : State) : Answer :=
  if isPlainAddr addr then .next (withResult (.word (readP (dspIndex addr) s)) s)
  else .refused (.illFormed "DR.P")

/-! ## DSP writes -/

/-- DW.PBC (R172). -/
def execDwPbc (w : Word) (s : State) : Answer := .next (pbcSet w s)

/-- DW.HCR (R163). -/
def execDwHcr (w : Word) (s : State) : Answer := .next (hcrSet w s)

/-- DW.BCR (R174). -/
def execDwBcr (w : Word) (s : State) : Answer := .next (bcrSet w s)

/-- DW.IPR (R165). -/
def execDwIpr (w : Word) (s : State) : Answer := .next (iprSet w s)

/-- DW.PCD (R176). -/
def execDwPcd (w : Word) (s : State) : Answer := .next (pcdSet w s)

/-- DW.HSR (R167): discarded. -/
def execDwHsr (_w : Word) (s : State) : Answer := .next (emit (.diag (.readOnly .hsr)) s)

/-- DW.HTRX (R169): not gated by HTDE. -/
def execDwHtrx (w : Word) (s : State) : Answer := .next (setHTDE false { s with htx := w })

/-- The write of an unnamed address by its class (R170). -/
def writePlain (addr w : Word) (s : State) : State :=
  match s.cfg.dspMap.get (dspIndex addr) with
  | .plain m => pSet (.p (dspIndex addr)) (dspIndex addr) m w s
  | .discard => emit (.diag (.reservedAddress addr)) s

/-- DW.P (R170). -/
def execDwP (addr w : Word) (s : State) : Answer :=
  if isPlainAddr addr then .next (writePlain addr w s) else .refused (.illFormed "DW.P")

end Sys2Proof.Machine
end

