-- ==== Sys2Proof/Machine/HostPort.lean ====
section
/-! DEFINITION. The meanings of the host-side events (45_host_port.md). -/

namespace Sys2Proof.Machine

/-! ## Host reads -/

/-- HR.ICR (R187). -/
def execHrIcr (s : State) : Answer := .next (withResult (.byte s.icr) s)

/-- HR.CVR (R188). -/
def execHrCvr (s : State) : Answer := .next (withResult (.byte s.cvr) s)

/-- HR.ISR (R189): reading the status clears nothing. -/
def execHrIsr (s : State) : Answer := .next (withResult (.byte s.isr) s)

/-- HR.IVR (R190). -/
def execHrIvr (s : State) : Answer := .next (withResult (.byte s.ivr) s)

/-- HR.UNUSED4 (R193). -/
def execHrUnused4 (s : State) : Answer := .next (withResult (.byte Layout.hostRdUnused4) s)

/-- HR.RSVD5 (R194): one fixed value per configuration. -/
def execHrRsvd5 (s : State) : Answer := .next (withResult (.byte s.cfg.hostRd5) s)

/-- HR.RXH (R191): gated by RXDF; it consumes nothing. -/
def execHrRxh (s : State) : Answer :=
  .next (withResult (.byte (if s.rxdf then s.rxh else Layout.sent8)) s)

/-- HR.RXL (R192): gated by RXDF; it consumes the word. The value is taken before the flag is cleared. -/
def execHrRxl (s : State) : Answer :=
  .next (if s.rxdf then withResult (.byte s.rxl) (setRXDF false s) else withResult (.byte Layout.sent8) s)

/-- HR.INVALID (R195): the read has no diagnostic. -/
def execHrInvalid (offset : Byte) (s : State) : Answer :=
  if isInvalidOffset offset then .next (withResult (.byte Layout.hostRdInvalid) s)
  else .refused (.illFormed "HR.INVALID")

/-! ## Host writes -/

/-- HW.ICR (R196): the abort test uses raw data bit 3 and the mode only. -/
def execHwIcr (b : Byte) (s : State) : Answer :=
  .next (if s.bootMode = .active ∧ b.getLsbD Layout.icrAbortBit = true then bootAbort s else icrSet b s)

/-- HW.CVR (R199). -/
def execHwCvr (b : Byte) (s : State) : Answer := .next (cvrSet b s)

/-- HW.ISR (R186): discarded. -/
def execHwIsr (_b : Byte) (s : State) : Answer := .next (emit (.diag (.readOnly .isr)) s)

/-- HW.IVR (R200). -/
def execHwIvr (b : Byte) (s : State) : Answer := .next (ivrSet b s)

/-- HW.UNUSED4 (R201): discarded. -/
def execHwUnused4 (_b : Byte) (s : State) : Answer :=
  .next (emit (.diag (.unusedOffset Layout.offUnused4)) s)

/-- HW.RSVD5 (R202): discarded. -/
def execHwRsvd5 (_b : Byte) (s : State) : Answer :=
  .next (emit (.diag (.reservedOffset Layout.offRsvd5)) s)

/-- The TXH write outside the bootstrap: stored when TXDE = 1, else dropped without a diagnostic (R197). -/
def writeTxh (b : Byte) (s : State) : State := if s.txde then { s with txh := b } else s

/-- HW.TXH (R197). -/
def execHwTxh (b : Byte) (s : State) : Answer :=
  if s.bootMode = .active then bootWriteHigh b s else .next (writeTxh b s)

/-- The TXL write outside the bootstrap: stored and released when TXDE = 1, else dropped without a diagnostic
(R198). -/
def writeTxl (b : Byte) (s : State) : State := if s.txde then setTXDE false { s with txl := b } else s

/-- HW.TXL (R198). -/
def execHwTxl (b : Byte) (s : State) : Answer :=
  if s.bootMode = .active then bootWriteLow b s else .next (writeTxl b s)

/-- HW.INVALID (R203): discarded. -/
def execHwInvalid (offset _b : Byte) (s : State) : Answer :=
  if isInvalidOffset offset then .next (emit (.diag (.invalidOffset offset)) s)
  else .refused (.illFormed "HW.INVALID")

end Sys2Proof.Machine
end

