-- ==== Sys2Proof/Machine/System.lean ====
section
/-! DEFINITION. The meaning of RESET, the one SYSTEM event (70_reset_and_hazards.md R240, R241). -/

namespace Sys2Proof.Machine

/-- The direct stores of RESET: the reset table 10_state.md R34. No setter is called and nothing is emitted. The six
data registers the table calls unspecified take free values (assumption log 4); program memory, the configuration and
the events still to arrive are not touched. -/
def resetRegisters (s : State) : State :=
  { s with
    icr := s.config.resetICR
    cvr := resetCVR s.config
    isr := resetISR s.config
    ivr := s.config.resetIvr
    txh := Config.freeByte s.freeCount
    txl := Config.freeByte (s.freeCount + 1)
    rxh := Config.freeByte (s.freeCount + 2)
    rxl := Config.freeByte (s.freeCount + 3)
    hcr := s.config.resetHCR
    hsr := resetHSR s.config
    htx := Config.freeWord (s.freeCount + 4)
    hrx := Config.freeWord (s.freeCount + 5)
    ipr := s.config.resetIpr
    p := s.config.resetP
    bootMode := s.config.bootAtReset
    bootOffset := s.config.resetBootOffset
    freeCount := s.freeCount + 6 }

/-- RESET (R240). -/
def execReset (s : State) : Answer := .next (resetRegisters s)

end Sys2Proof.Machine
end

