-- ==== Sys2Proof/Machine/Dispatch.lean ====
section
/-! DEFINITION. The meaning of each event: one arm for each constructor of Instr. -/

namespace Sys2Proof.Machine

def exec (i : Instr) (s : State) : Host.Outcome State Fault Refusal :=
  match i with
  | .hrIcr => Sys2Proof.Machine.execHrIcr s
  | .hrCvr => Sys2Proof.Machine.execHrCvr s
  | .hrIsr => Sys2Proof.Machine.execHrIsr s
  | .hrIvr => Sys2Proof.Machine.execHrIvr s
  | .hrUnused4 => Sys2Proof.Machine.execHrUnused4 s
  | .hrRsvd5 => Sys2Proof.Machine.execHrRsvd5 s
  | .hrRxh => Sys2Proof.Machine.execHrRxh s
  | .hrRxl => Sys2Proof.Machine.execHrRxl s
  | .hrInvalid offset => Sys2Proof.Machine.execHrInvalid offset s
  | .hwIcr data => Sys2Proof.Machine.execHwIcr data s
  | .hwCvr data => Sys2Proof.Machine.execHwCvr data s
  | .hwIsr data => Sys2Proof.Machine.execHwIsr data s
  | .hwIvr data => Sys2Proof.Machine.execHwIvr data s
  | .hwUnused4 data => Sys2Proof.Machine.execHwUnused4 data s
  | .hwRsvd5 data => Sys2Proof.Machine.execHwRsvd5 data s
  | .hwTxh data => Sys2Proof.Machine.execHwTxh data s
  | .hwTxl data => Sys2Proof.Machine.execHwTxl data s
  | .hwInvalid offset data => Sys2Proof.Machine.execHwInvalid offset data s
  | .drPbc => Sys2Proof.Machine.execDrPbc s
  | .drHcr => Sys2Proof.Machine.execDrHcr s
  | .drBcr => Sys2Proof.Machine.execDrBcr s
  | .drIpr => Sys2Proof.Machine.execDrIpr s
  | .drPcd => Sys2Proof.Machine.execDrPcd s
  | .drHsr => Sys2Proof.Machine.execDrHsr s
  | .drHtrx => Sys2Proof.Machine.execDrHtrx s
  | .drP addr => Sys2Proof.Machine.execDrP addr s
  | .dwPbc data => Sys2Proof.Machine.execDwPbc data s
  | .dwHcr data => Sys2Proof.Machine.execDwHcr data s
  | .dwBcr data => Sys2Proof.Machine.execDwBcr data s
  | .dwIpr data => Sys2Proof.Machine.execDwIpr data s
  | .dwPcd data => Sys2Proof.Machine.execDwPcd data s
  | .dwHsr data => Sys2Proof.Machine.execDwHsr data s
  | .dwHtrx data => Sys2Proof.Machine.execDwHtrx data s
  | .dwP addr data => Sys2Proof.Machine.execDwP addr data s
  | .reset => Sys2Proof.Machine.execReset s

end Sys2Proof.Machine
end

