-- ==== Sys2Proof/Machine/Step.lean ====
section
/-! DEFINITION. One step: the next event of the total order arrives, is decoded, and runs (20_memory.md R50, R51). -/

namespace Sys2Proof.Machine

/-- One step. The event word at the head of the queue arrives and runs; a word that spells no event is refused (R61);
with no event to come nothing happens, because the block is purely reactive (00_scope.md R5; assumption log 6). -/
def step (s : State) : Host.Outcome State Fault Refusal :=
  match s.queue with
  | [] => .next s
  | e :: rest =>
    match decode e with
    | .ok i => exec i (arrive rest s)
    | .error why => .refused (.notAnEvent e why)

/-- The state in which an opcode-table row's event is the next to arrive, before those already queued (assumption log
5). -/
def State.withFetchWord (s : State) (nbits w : Nat) : State :=
  { s with queue := tableWord nbits w :: s.queue }

end Sys2Proof.Machine
end

