-- ==== Sys2Proof/Machine/Priority.lean ====
section
/-! DEFINITION. The Interrupt Priority Decoder (41_interrupt_priority_decoder.md): nine combinational projections of
IPR, pure and read-only (R120), and the level of the block's own requests (60_exceptions.md R223, R224). -/

namespace Sys2Proof.Machine

/-- A priority level: exactly -1, 0, 1, 2 (R110). -/
inductive Ipl where
  /-- -1: the source is disabled. -/
  | disabled
  | level0
  | level1
  | level2
deriving DecidableEq, Repr

/-- The level as an integer (R110). -/
def Ipl.toInt : Ipl → Int
  | .disabled => -1
  | .level0 => 0
  | .level1 => 1
  | .level2 => 2

/-- level = zext(field) - 1 on mathematical integers (R110): four cases, no wrap-around. -/
def iplOfField (f : BitVec 2) : Ipl :=
  if f = 0b00#2 then .disabled
  else if f = 0b01#2 then .level0
  else if f = 0b10#2 then .level1
  else .level2

/-- irqa_ipl (R111). -/
def irqaIpl (ipr : Word) : Ipl := iplOfField (ipr.extractLsb' Layout.iprIRQALo 2)
/-- irqa_trigger (R112). -/
def irqaTrigger (ipr : Word) : Bool := ipr.getLsbD Layout.iprIRQATrigger
/-- irqb_ipl (R113). -/
def irqbIpl (ipr : Word) : Ipl := iplOfField (ipr.extractLsb' Layout.iprIRQBLo 2)
/-- irqb_trigger (R114). -/
def irqbTrigger (ipr : Word) : Bool := ipr.getLsbD Layout.iprIRQBTrigger
/-- codec_ipl (R115). -/
def codecIpl (ipr : Word) : Ipl := iplOfField (ipr.extractLsb' Layout.iprCODECLo 2)
/-- host_ipl (R116). -/
def hostIpl (ipr : Word) : Ipl := iplOfField (ipr.extractLsb' Layout.iprHOSTLo 2)
/-- ssi0_ipl (R117). -/
def ssi0Ipl (ipr : Word) : Ipl := iplOfField (ipr.extractLsb' Layout.iprSSI0Lo 2)
/-- ssi1_ipl (R118). -/
def ssi1Ipl (ipr : Word) : Ipl := iplOfField (ipr.extractLsb' Layout.iprSSI1Lo 2)
/-- timer_ipl (R119). -/
def timerIpl (ipr : Word) : Ipl := iplOfField (ipr.extractLsb' Layout.iprTIMERLo 2)

/-- The nine projections, the block's combinational output (00_scope.md R6). -/
structure Projections where
  irqa : Ipl
  irqaTrigger : Bool
  irqb : Ipl
  irqbTrigger : Bool
  codec : Ipl
  host : Ipl
  ssi0 : Ipl
  ssi1 : Ipl
  timer : Ipl
deriving DecidableEq, Repr

/-- The nine projections of an IPR value, in the order of R111 to R119. -/
def projections (ipr : Word) : Projections :=
  ⟨irqaIpl ipr, irqaTrigger ipr, irqbIpl ipr, irqbTrigger ipr, codecIpl ipr, hostIpl ipr, ssi0Ipl ipr, ssi1Ipl ipr,
    timerIpl ipr⟩

/-- What a trigger-mode bit means (R112, R114). -/
inductive TriggerMode where
  | levelSensitive
  | edgeSensitive
deriving DecidableEq, Repr

/-- The mode a trigger bit means under TRIG_POLARITY (00_scope.md R7); no rule reads it. -/
def triggerMode (c : Cfg.Open) (bit : Bool) : TriggerMode :=
  if bit = c.edgeBit then .edgeSensitive else .levelSensitive

/-- The level a request of the block is delivered at: all three tags belong to the HOST source, and the level is looked
up at the time of delivery (60_exceptions.md R223); the delivery itself is outside the block (assumption log 16). -/
def requestLevel (_tag : IrqTag) (s : State) : Ipl := hostIpl s.ipr

end Sys2Proof.Machine
end

