-- ==== Sys2Proof/Safety.lean ====
section
/-! DEFINITION. What every state between events satisfies (10_state.md section 8), the classes of events claims speak
of, and the words in which claims say what an event emits. -/

namespace Sys2Proof.Machine

/-! ## Invariants between events -/

/-- R28: each mirrored flag equals its mirror. -/
def MirrorInv (s : State) : Prop :=
  s.hsr.getLsbD Layout.hsrHF0 = s.icr.getLsbD Layout.icrHF0 ∧
  s.hsr.getLsbD Layout.hsrHF1 = s.icr.getLsbD Layout.icrHF1 ∧
  s.isr.getLsbD Layout.isrHF2 = s.hcr.getLsbD Layout.hcrHF2 ∧
  s.isr.getLsbD Layout.isrHF3 = s.hcr.getLsbD Layout.hcrHF3

/-- R29: neither path has both of its flags clear. -/
def HandshakeInv (s : State) : Prop :=
  ¬(s.txde = false ∧ s.hrdf = false) ∧ ¬(s.rxdf = false ∧ s.htde = false)

/-- R30: every reserved bit of every register is 0. -/
def ReservedInv (s : State) : Prop :=
  outside Layout.maskICR s.icr = 0 ∧ outside Layout.maskCVR s.cvr = 0 ∧ outside Layout.maskISR s.isr = 0 ∧
  outside Layout.maskIVR s.ivr = 0 ∧ outside Layout.maskHCR s.hcr = 0 ∧ outside Layout.maskHSR s.hsr = 0 ∧
  outside Layout.maskIPR s.ipr = 0 ∧ ∀ i : Fin dspCount, outside (validMask s.cfg i) (readP i s) = 0

/-- R31, R152: the offset is bounded, and below the bound while the bootstrap is active. -/
def BootInv (s : State) : Prop :=
  s.bootOffset ≤ Layout.bootLimit ∧ (s.bootMode = .active → s.bootOffset < Layout.bootLimit)

/-- R33: HCP equals HC. -/
def CommandInv (s : State) : Prop := s.hcp = s.hc

/-- R171: an address of class Discard still holds its reset value. -/
def DiscardInv (s : State) : Prop :=
  ∀ a : Word, isPlainAddr a = true → s.cfg.dspMap.get (dspIndex a) = .discard →
    readP (dspIndex a) s = s.cfg.resetP.get (dspIndex a)

/-- The model's program memory is canonical and holds lanes of the window only (assumption log 9, R43). -/
def PmemInv (s : State) : Prop := Memory.wf s.pmem = true ∧ Memory.inWindow s.pmem = true

/-- R34: the reset values of the backing store satisfy R30 (and an entry without storage is 0, assumption log 12). -/
def CfgOk (c : Cfg.Open) : Prop := ∀ i : Fin dspCount, outside (validMask c i) (c.resetP.get i) = 0

/-- What holds after reset and after every event. -/
structure State.Inv (s : State) : Prop where
  mirror : MirrorInv s
  handshake : HandshakeInv s
  reserved : ReservedInv s
  boot : BootInv s
  command : CommandInv s
  discard : DiscardInv s
  pmem : PmemInv s
  cfg : CfgOk s.cfg

/-! ## Classes of events, by their event words (00_scope.md R5) -/

/-- A host-side event. -/
def isHostEvent (i : Instr) : Bool := evAgent (encode i) == Layout.agentHost
/-- A DSP-side event. -/
def isDspEvent (i : Instr) : Bool := evAgent (encode i) == Layout.agentDsp
/-- A write event. -/
def isWriteEvent (i : Instr) : Bool := evWrite (encode i)

/-! ## What an event emits -/

/-- The output is an interrupt request. -/
def Output.isIrq : Output → Bool
  | .irq _ => true
  | .portC _ | .pcSet _ | .pmem _ _ _ | .diag _ => false

/-- The output is a diagnostic. -/
def Output.isDiag : Output → Bool
  | .diag _ => true
  | .irq _ | .portC _ | .pcSet _ | .pmem _ _ _ => false

/-- One request of the tag if the enable is on, nothing otherwise. -/
def requestIf (enable : Bool) (tag : IrqTag) : List Output := if enable then [.irq tag] else []

/-- The diagnostic of policy 1 if any of the offending bits is 1, nothing otherwise (60_exceptions.md R216). -/
def diagIf (reg : RegName) (bits : Word) : List Output := if bits = 0 then [] else [.diag (.reservedBits reg bits)]

/-- Events in the order of arrival, one after another, from a state (20_memory.md R51). -/
def execAll : List Instr → State → Answer
  | [], s => .next s
  | i :: rest, s =>
    match exec i s with
    | .next t => execAll rest t
    | .fault f => .fault f
    | .refused r => .refused r

end Sys2Proof.Machine
end

