-- ==== Sys2Proof/Certificates/Slice0/Obligations.lean ====
section
/-! DEFINITION. The statements for the provers. -/

open Sys2Proof Sys2Proof.Machine

/-! ## Encoding and decode -/

/-- 30_encoding.md sections 1 and 4 (R60, R73 to R75): decoding an encoded event gives it back, with every operand. -/
def Obligations.DecodeOfEncodeIsTheEvent : Prop :=
  ∀ i : Instr, i.wellFormed = true → decode (encode i) = .ok i

/-- 30_encoding.md section 4: a word that decodes is the encoding of a well-formed event, and of that one. -/
def Obligations.EncodeOfDecodedIsTheWord : Prop :=
  ∀ (e : EventWord) (i : Instr), decode e = .ok i → i.wellFormed = true ∧ encode i = e

/-- R61 (the spec's decision D1): a word is an event exactly when the five clauses hold, and the decoder refuses every
other word. -/
def Obligations.DecodeAcceptsExactlyTheEvents : Prop :=
  ∀ e : EventWord, (∃ i, decode e = .ok i) ↔
    e.extractLsb' 33 2 ≠ 0b11#2 ∧
    (e.extractLsb' 33 2 = 0b10#2 →
      e.getLsbD 32 = false ∧ e.extractLsb' 16 16 = 0#16 ∧ e.extractLsb' 0 16 = 0#16) ∧
    (e.extractLsb' 33 2 = 0b00#2 → e.extractLsb' 24 8 = 0#8 ∧ e.extractLsb' 8 8 = 0#8) ∧
    (e.extractLsb' 33 2 = 0b01#2 → 0xffc0 ≤ (e.extractLsb' 16 16).toNat) ∧
    (e.getLsbD 32 = false → e.extractLsb' 0 16 = 0#16)

/-- R62, R79 (the spec's own derivation): the mnemonics of the rows a word selects are exactly the one of its event,
and none if it spells no event; and data never selects an operation. -/
def Obligations.EventSelectsExactlyItsRow : Prop :=
  (∀ e : EventWord, (opcodeRows.filter (fun r => r.selects e)).map OpRow.mnemonic =
    match decode e with
    | .ok i => [i.mnemonic]
    | .error _ => []) ∧
  (∀ (e e' : EventWord) (i i' : Instr), decode e = .ok i → decode e' = .ok i' →
    e.extractLsb' 16 19 = e'.extractLsb' 16 19 → i.mnemonic = i'.mnemonic)

/-- R60's four example words, and one word of each register family, decode to the events they stand for. -/
def Obligations.SampleWordsDecode : Prop :=
  decode 0x100070034#35 = .ok (.hwTxl 0x34) ∧ decode 0x2FFE50000#35 = .ok .drHtrx ∧
  decode 0x3FFE5CAFE#35 = .ok (.dwHtrx 0xcafe) ∧ decode 0x400000000#35 = .ok .reset ∧
  decode 0x000020000#35 = .ok .hrIsr ∧ decode 0x3FFD0A5A5#35 = .ok (.dwP 0xffd0 0xa5a5) ∧
  decode 0x100FF0001#35 = .ok (.hwInvalid 0xff 0x01)

/-! ## The step -/

/-- 20_memory.md section 4 (R50, R51): when the word at the head of the queue decodes to an event, the step is that
event, from the state in which it has left the queue and the record of results and outputs is empty. -/
def Obligations.StepRunsTheArrivingEvent : Prop :=
  ∀ (s : State) (e : EventWord) (rest : List EventWord) (i : Instr),
    s.queue = e :: rest → decode e = .ok i →
    step s = exec i { s with queue := rest, result := none, outs := [] }

/-- The model's choices (assumption logs 6 and 11): a word that spells no event is refused, and nothing happens when no
event is to come. -/
def Obligations.StepRefusesNonEventsAndIdles : Prop :=
  (∀ (s : State) (e : EventWord) (rest : List EventWord) (why : NotEvent),
    s.queue = e :: rest → decode e = .error why → step s = .refused (.notAnEvent e why)) ∧
  (∀ s : State, s.queue = [] → step s = .next s)

/-- The model's choice (assumption log 11): a term that is no event is refused by name, whatever the state. -/
def Obligations.IllFormedTermsAreRefused : Prop :=
  ∀ (i : Instr) (s : State), i.wellFormed = false → exec i s = .refused (.illFormed i.mnemonic)

/-- The model's choice (assumption log 10): a bootstrap write outside 0 to 0x7ff, which R152 excludes, faults. -/
def Obligations.BootWriteOutsideTheWindowFaults : Prop :=
  ∀ (s : State) (d : Byte), s.bootMode = .active → 0x800 ≤ s.bootOffset →
    exec (.hwTxh d) s = .fault .pmemOutsideWindow ∧ exec (.hwTxl d) s = .fault .pmemOutsideWindow

/-! ## Invariants and safety -/

/-- 10_state.md section 8: the state after reset satisfies every invariant. -/
def Obligations.ResetStateSatisfiesTheInvariant : Prop := State.reset.Inv

/-- 10_state.md section 8 (R28 to R31, R33), with the model's own clauses on program memory and entries without storage
(assumption logs 9 and 12): every step keeps the invariant. -/
def Obligations.StepKeepsTheInvariant : Prop :=
  ∀ s t : State, s.Inv → step s = .next t → t.Inv

/-- R28 and R33 (the spec's decisions D11 and D12): after RESET from any state, and after every event from a state in
which the mirrors agree and HCP = HC, the mirrors agree and HCP = HC. -/
def Obligations.EveryEventKeepsMirrorsAndCommand : Prop :=
  ∀ (i : Instr) (s t : State), i = .reset ∨ (MirrorInv s ∧ CommandInv s) → exec i s = .next t →
    (t.hsr.getLsbD 3 = t.icr.getLsbD 3 ∧ t.hsr.getLsbD 4 = t.icr.getLsbD 4 ∧
      t.isr.getLsbD 3 = t.hcr.getLsbD 3 ∧ t.isr.getLsbD 4 = t.hcr.getLsbD 4) ∧
    t.hsr.getLsbD 2 = t.cvr.getLsbD 7

/-- R29 (the spec's own derivation): after RESET from any state, and after every event from a state in which neither
path has both flags clear, each path is in one of its three stable states. -/
def Obligations.EveryEventLeavesStablePaths : Prop :=
  ∀ (i : Instr) (s t : State), i = .reset ∨ HandshakeInv s → exec i s = .next t →
    ((t.isr.getLsbD 1, t.hsr.getLsbD 0) = (true, false) ∨ (t.isr.getLsbD 1, t.hsr.getLsbD 0) = (true, true) ∨
      (t.isr.getLsbD 1, t.hsr.getLsbD 0) = (false, true)) ∧
    ((t.hsr.getLsbD 1, t.isr.getLsbD 0) = (true, false) ∨ (t.hsr.getLsbD 1, t.isr.getLsbD 0) = (true, true) ∨
      (t.hsr.getLsbD 1, t.isr.getLsbD 0) = (false, true))

/-- R215: from every state between events, every event completes: none faults and none is refused. -/
def Obligations.NoEventFaultsOrIsRefused : Prop :=
  (∀ (i : Instr) (s : State), i.wellFormed = true → s.Inv → ∃ t, exec i s = .next t) ∧
  (∀ (s : State) (e : EventWord) (rest : List EventWord), s.Inv → s.queue = e :: rest → isEvent e = true →
    ∃ t, step s = .next t)

/-- R31 (the spec's own derivation): between two resets the offset never decreases and stays bounded by 0x800, the mode
never returns to ACTIVE, and the offset 0x800 means OFF. -/
def Obligations.BootstrapOnlyAdvances : Prop :=
  ∀ (i : Instr) (s t : State), i ≠ .reset → BootInv s → exec i s = .next t →
    s.bootOffset ≤ t.bootOffset ∧ t.bootOffset ≤ 0x800 ∧ (s.bootMode = .off → t.bootMode = .off) ∧
    (t.bootOffset = 0x800 → t.bootMode = .off)

/-- R32: the flags of a path are set to 1 together, by its transfer, which leaves the reader's data equal to the
writer's; each is cleared alone, by its own side's access. -/
def Obligations.FlagsAreSetTogetherAndClearedAlone : Prop :=
  ∀ (i : Instr) (s t : State), i ≠ .reset → exec i s = .next t →
    ((s.txde = false ∧ t.txde = true ∨ s.hrdf = false ∧ t.hrdf = true) →
      t.txde = true ∧ t.hrdf = true ∧ t.hrx = (t.txh ++ t.txl : Word)) ∧
    ((s.htde = false ∧ t.htde = true ∨ s.rxdf = false ∧ t.rxdf = true) →
      t.htde = true ∧ t.rxdf = true ∧ t.htx = (t.rxh ++ t.rxl : Word)) ∧
    (s.txde = true ∧ t.txde = false → t.hrdf = s.hrdf ∧ ∃ b, i = .hwTxl b) ∧
    (s.hrdf = true ∧ t.hrdf = false → t.txde = s.txde ∧ i = .drHtrx) ∧
    (s.htde = true ∧ t.htde = false → t.rxdf = s.rxdf ∧ ∃ w, i = .dwHtrx w) ∧
    (s.rxdf = true ∧ t.rxdf = false → t.htde = s.htde ∧ i = .hrRxl)

/-! ## Reset -/

/-- R240 with the table R34 (whose values are the spec's decision D19): RESET, from any state, stores the reset values
and nothing else, and emits nothing. The six registers the table leaves unspecified are not constrained. -/
def Obligations.ResetEventStoresTheResetTable : Prop :=
  ∀ s : State, ∃ t, exec .reset s = .next t ∧
    t.bootMode = s.cfg.bootAtReset ∧ t.bootOffset = 0 ∧
    t.txde = true ∧ t.hrdf = false ∧ t.htde = true ∧ t.rxdf = false ∧ t.hcp = false ∧ t.hc = false ∧
    t.hcr = 0x0000#16 ∧ t.icr = 0x00#8 ∧ t.isr = 0x02#8 ∧ t.hsr = 0x0002#16 ∧
    t.cvr.extractLsb' 0 5 = s.cfg.resetHv ∧ t.ivr = s.cfg.resetIvr ∧ t.ipr = s.cfg.resetIpr ∧ t.p = s.cfg.resetP ∧
    t.pmem = s.pmem ∧ t.cfg = s.cfg ∧ t.queue = s.queue ∧ t.result = s.result ∧ t.outs = s.outs

/-- R240 (the spec's own derivation): after RESET from any state the invariants R28 to R31 and R33 hold, and a second
RESET changes nothing but the six unspecified registers (and the model's counter of free values, assumption log 4). -/
def Obligations.ResetEstablishesTheInvariantsAndRepeats : Prop :=
  ∀ s : State, ∃ t, exec .reset s = .next t ∧
    MirrorInv t ∧ HandshakeInv t ∧ (CfgOk s.cfg → ReservedInv t) ∧ BootInv t ∧ CommandInv t ∧
    ∃ u, exec .reset t = .next u ∧
      u = { t with
              txh := u.txh, txl := u.txl, rxh := u.rxh, rxl := u.rxl, htx := u.htx, hrx := u.hrx,
              freeCount := u.freeCount }

/-! ## Register reads -/

/-- 45_host_port.md section 2 (R187 to R190, R193 to R195; the read of CVR, R188, is the spec's own derivation, and that
of offset 0x05, R194, its decision D18, whose value is free, assumption log 2): the host reads that return a register or
a constant complete in every state, in either bootstrap mode, and change nothing but the result. Between events bits 7,
6, 5 and 2 of ICR read 0. -/
def Obligations.HostRegisterReads : Prop :=
  ∀ s : State,
    exec .hrIcr s = .next { s with result := some (.byte s.icr) } ∧ (ReservedInv s → s.icr &&& 0xe4#8 = 0#8) ∧
    exec .hrCvr s = .next { s with result := some (.byte s.cvr) } ∧
    exec .hrIsr s = .next { s with result := some (.byte s.isr) } ∧
    exec .hrIvr s = .next { s with result := some (.byte s.ivr) } ∧
    exec .hrUnused4 s = .next { s with result := some (.byte 0x00) } ∧
    exec .hrRsvd5 s = .next { s with result := some (.byte s.cfg.hostRd5) } ∧
    ∀ o : Byte, 0x08 ≤ o.toNat → exec (.hrInvalid o) s = .next { s with result := some (.byte 0xff) }

/-- 44_dsp_dispatcher.md sections 2 to 4 (R162, R164, R166, R171, R173, R175, R177; the address of HSR, R166, is the
spec's decision D9, and that a read of Port C Data returns the stored value, R177, its decision D34): the DSP reads that
return a register or a backing-store entry complete in every state and change nothing but the result. Between events HCR
and HSR read 0 in bits 15 to 5, and an address of class Discard reads its reset value. -/
def Obligations.DspRegisterReads : Prop :=
  ∀ s : State,
    exec .drHcr s = .next { s with result := some (.word s.hcr) } ∧ (ReservedInv s → s.hcr &&& 0xffe0#16 = 0#16) ∧
    exec .drHsr s = .next { s with result := some (.word s.hsr) } ∧ (ReservedInv s → s.hsr &&& 0xffe0#16 = 0#16) ∧
    exec .drIpr s = .next { s with result := some (.word s.ipr) } ∧
    exec .drPbc s = .next { s with result := some (.word (s.p.get 0x00)) } ∧
    exec .drBcr s = .next { s with result := some (.word (s.p.get 0x1e)) } ∧
    exec .drPcd s = .next { s with result := some (.word (s.p.get 0x23)) } ∧
    ∀ (a : Word) (k : Fin 64), a.toNat = 0xffc0 + k → isPlainAddr a = true →
      exec (.drP a) s = .next { s with result := some (.word (s.p.get k)) } ∧
      (DiscardInv s → s.cfg.dspMap.get k = .discard → s.p.get k = s.cfg.resetP.get k)

/-! ## Register writes -/

/-- R84, R151, R196: a host write of ICR that is not an abort stores the valid bits, mirrors HF1 and HF0 into HSR,
reports the reserved ones, and changes nothing else. -/
def Obligations.HostWriteOfIcr : Prop :=
  ∀ (s : State) (b : Byte), outside Layout.maskICR s.icr = 0 → ¬(s.bootMode = .active ∧ b.getLsbD 3 = true) →
    exec (.hwIcr b) s = .next { s with
      icr := b &&& 0x1b#8
      hsr := (s.hsr &&& 0xffe7#16) ||| ((b &&& 0x18#8).setWidth 16)
      outs := s.outs ++ diagIf .icr ((b &&& 0xe4#8).setWidth 16) }

/-- R87, R199: a host write of CVR stores the valid bits, copies HC to HCP, raises Host Command when both it and HCIE
are 1, reports the reserved bits first, and changes nothing else. -/
def Obligations.HostWriteOfCvr : Prop :=
  ∀ (s : State) (b : Byte), outside Layout.maskCVR s.cvr = 0 →
    exec (.hwCvr b) s = .next { s with
      cvr := b &&& 0x9f#8
      hsr := if b.getLsbD 7 then s.hsr ||| 0x0004#16 else s.hsr &&& 0xfffb#16
      outs := s.outs ++ diagIf .cvr ((b &&& 0x60#8).setWidth 16) ++
        requestIf (b.getLsbD 7 && s.hcr.getLsbD 2) .hostCommand }

/-- R92, R163: a DSP write of HCR stores the valid bits, mirrors HF3 and HF2 into ISR, reports the reserved ones,
raises no request, and changes nothing else. -/
def Obligations.DspWriteOfHcr : Prop :=
  ∀ (s : State) (w : Word), outside Layout.maskHCR s.hcr = 0 →
    exec (.dwHcr w) s = .next { s with
      hcr := w &&& 0x001f#16
      isr := (s.isr &&& 0xe7#8) ||| ((w &&& 0x0018#16).setWidth 8)
      outs := s.outs ++ diagIf .hcr (w &&& 0xffe0#16) }

/-- R98 to R102 (R165, R172, R174, R176, R200): the writes of IVR, IPR, Port B Control, BCR and Port C Data store the
valid bits, report the reserved ones, and change nothing else; Port C Data emits the stored value on every write. -/
def Obligations.WritesOfPlainRegisters : Prop :=
  ∀ s : State,
    (∀ b, exec (.hwIvr b) s = .next { s with ivr := b }) ∧
    (∀ w, exec (.dwIpr w) s = .next { s with ipr := w }) ∧
    (∀ w, exec (.dwPbc w) s = .next { s with
      p := s.p.set 0x00 (w &&& 0x0001#16), outs := s.outs ++ diagIf .pbc (w &&& 0xfffe#16) }) ∧
    (∀ w, exec (.dwBcr w) s = .next { s with
      p := s.p.set 0x1e (w &&& s.cfg.maskBcr), outs := s.outs ++ diagIf .bcr (w &&& ~~~s.cfg.maskBcr) }) ∧
    (∀ w, exec (.dwPcd w) s = .next { s with
      p := s.p.set 0x23 (w &&& s.cfg.maskPcd)
      outs := s.outs ++ diagIf .pcd (w &&& ~~~s.cfg.maskPcd) ++ [.portC (w &&& s.cfg.maskPcd)] })

/-- R103, R170: a DSP write of an unnamed address of class Plain(m) stores the bits of m and reports the others; of
class Discard it is discarded with a diagnostic. Nothing else changes. -/
def Obligations.DspWriteOfPlainAddress : Prop :=
  ∀ (s : State) (a w : Word) (k : Fin 64), a.toNat = 0xffc0 + k → isPlainAddr a = true →
    (∀ m, s.cfg.dspMap.get k = .plain m →
      exec (.dwP a w) s = .next { s with
        p := s.p.set k (w &&& m), outs := s.outs ++ diagIf (.p k) (w &&& ~~~m) }) ∧
    (s.cfg.dspMap.get k = .discard →
      exec (.dwP a w) s = .next { s with outs := s.outs ++ [.diag (.reservedAddress a)] })

/-- 45_host_port.md section 3 and 44_dsp_dispatcher.md section 2 (R186, R201 to R203, and R167, the spec's decision D9;
policy 2 of R217): the writes of a read-only, unused, reserved or invalid location change no state and report
themselves. -/
def Obligations.DiscardedWrites : Prop :=
  ∀ s : State,
    (∀ b, exec (.hwIsr b) s = .next { s with outs := s.outs ++ [.diag (.readOnly .isr)] }) ∧
    (∀ b, exec (.hwUnused4 b) s = .next { s with outs := s.outs ++ [.diag (.unusedOffset 0x04)] }) ∧
    (∀ b, exec (.hwRsvd5 b) s = .next { s with outs := s.outs ++ [.diag (.reservedOffset 0x05)] }) ∧
    (∀ o b : Byte, 0x08 ≤ o.toNat →
      exec (.hwInvalid o b) s = .next { s with outs := s.outs ++ [.diag (.invalidOffset o)] }) ∧
    (∀ w, exec (.dwHsr w) s = .next { s with outs := s.outs ++ [.diag (.readOnly .hsr)] })

/-- R104 (the spec's own derivation): for every register that has a register-level set, a read after a write returns
the written value under the valid mask. -/
def Obligations.ReadBackAfterWrite : Prop :=
  ∀ s : State, s.Inv →
    (∀ v, s.bootMode = .off → ∃ t u, exec (.hwIcr v) s = .next t ∧ exec .hrIcr t = .next u ∧
      u.result = some (.byte (v &&& 0x1b#8))) ∧
    (∀ v, ∃ t u, exec (.hwCvr v) s = .next t ∧ exec .hrCvr t = .next u ∧
      u.result = some (.byte (v &&& 0x9f#8))) ∧
    (∀ v, ∃ t u, exec (.hwIvr v) s = .next t ∧ exec .hrIvr t = .next u ∧ u.result = some (.byte v)) ∧
    (∀ v, ∃ t u, exec (.dwHcr v) s = .next t ∧ exec .drHcr t = .next u ∧
      u.result = some (.word (v &&& 0x001f#16))) ∧
    (∀ v, ∃ t u, exec (.dwIpr v) s = .next t ∧ exec .drIpr t = .next u ∧ u.result = some (.word v)) ∧
    (∀ v, ∃ t u, exec (.dwPbc v) s = .next t ∧ exec .drPbc t = .next u ∧
      u.result = some (.word (v &&& 0x0001#16))) ∧
    (∀ v, ∃ t u, exec (.dwBcr v) s = .next t ∧ exec .drBcr t = .next u ∧
      u.result = some (.word (v &&& s.cfg.maskBcr))) ∧
    (∀ v, ∃ t u, exec (.dwPcd v) s = .next t ∧ exec .drPcd t = .next u ∧
      u.result = some (.word (v &&& s.cfg.maskPcd))) ∧
    (∀ a v m, isPlainAddr a = true → s.cfg.dspMap.get (dspIndex a) = .plain m →
      ∃ t u, exec (.dwP a v) s = .next t ∧ exec (.drP a) t = .next u ∧ u.result = some (.word (v &&& m)))

/-! ## The two data paths -/

/-- R134 (the spec's own derivation): the host-to-DSP path, all nine cells of its table, and everything else unchanged
in each. -/
def Obligations.HostToDspPathTable : Prop :=
  ∀ (s : State) (b : Byte),
    (s.txde = true → s.hrdf = false →
      (s.bootMode = .off → exec (.hwTxh b) s = .next { s with txh := b }) ∧
      (s.bootMode = .off → exec (.hwTxl b) s = .next { s with
        txl := b, hrx := (s.txh ++ b : Word), hsr := s.hsr ||| 0x0001#16
        outs := s.outs ++ requestIf (s.hcr.getLsbD 0) .hostReceiveData }) ∧
      exec .drHtrx s = .next { s with result := some (.word 0xbeef) }) ∧
    (s.txde = true → s.hrdf = true →
      (s.bootMode = .off → exec (.hwTxh b) s = .next { s with txh := b }) ∧
      (s.bootMode = .off → exec (.hwTxl b) s = .next { s with txl := b, isr := s.isr &&& 0xfd#8 }) ∧
      exec .drHtrx s = .next { s with result := some (.word s.hrx), hsr := s.hsr &&& 0xfffe#16 }) ∧
    (s.txde = false → s.hrdf = true →
      (s.bootMode = .off → exec (.hwTxh b) s = .next s) ∧
      (s.bootMode = .off → exec (.hwTxl b) s = .next s) ∧
      exec .drHtrx s = .next { s with
        result := some (.word s.hrx), hrx := (s.txh ++ s.txl : Word), isr := s.isr ||| 0x02#8
        outs := s.outs ++ requestIf (s.hcr.getLsbD 0) .hostReceiveData })

/-- R135 (the spec's own derivation): the DSP-to-host path, all nine cells of its table, and everything else unchanged
in each. -/
def Obligations.DspToHostPathTable : Prop :=
  ∀ (s : State) (w : Word),
    (s.htde = true → s.rxdf = false →
      exec (.dwHtrx w) s = .next { s with
        htx := w, rxh := w.extractLsb' 8 8, rxl := w.extractLsb' 0 8, isr := s.isr ||| 0x01#8
        outs := s.outs ++ requestIf (s.hcr.getLsbD 1) .hostTransmitData } ∧
      exec .hrRxh s = .next { s with result := some (.byte 0xbf) } ∧
      exec .hrRxl s = .next { s with result := some (.byte 0xbf) }) ∧
    (s.htde = true → s.rxdf = true →
      exec (.dwHtrx w) s = .next { s with htx := w, hsr := s.hsr &&& 0xfffd#16 } ∧
      exec .hrRxh s = .next { s with result := some (.byte s.rxh) } ∧
      exec .hrRxl s = .next { s with result := some (.byte s.rxl), isr := s.isr &&& 0xfe#8 }) ∧
    (s.htde = false → s.rxdf = true →
      exec (.dwHtrx w) s = .next { s with htx := w } ∧
      exec .hrRxh s = .next { s with result := some (.byte s.rxh) } ∧
      exec .hrRxl s = .next { s with
        result := some (.byte s.rxl), rxh := s.htx.extractLsb' 8 8, rxl := s.htx.extractLsb' 0 8
        hsr := s.hsr ||| 0x0002#16, outs := s.outs ++ requestIf (s.hcr.getLsbD 1) .hostTransmitData })

/-- R218: a read of an empty channel returns its sentinel, changes no flag (nothing but the result), and reports
nothing, in either bootstrap mode. -/
def Obligations.EmptyChannelReadsReturnSentinels : Prop :=
  ∀ s : State,
    (s.hsr.getLsbD 0 = false → exec .drHtrx s = .next { s with result := some (.word 0xbeef) }) ∧
    (s.isr.getLsbD 0 = false →
      exec .hrRxh s = .next { s with result := some (.byte 0xbf) } ∧
      exec .hrRxl s = .next { s with result := some (.byte 0xbf) })

/-- 20_memory.md section 4 and 70_reset_and_hazards.md section 3 (R44, R54, R250): with the bootstrap off and the
host-to-DSP path idle, two words the host writes byte by byte reach the DSP in order, each once; a third one written
before a read is dropped; and the next read returns the sentinel. -/
def Obligations.HostWordsReachTheDspInOrder : Prop :=
  ∀ (s : State) (h1 l1 h2 l2 h3 l3 : Byte), s.bootMode = .off → s.txde = true → s.hrdf = false →
    ∃ t t1 t2 t3,
      execAll [.hwTxh h1, .hwTxl l1, .hwTxh h2, .hwTxl l2, .hwTxh h3, .hwTxl l3] s = .next t ∧
      exec .drHtrx t = .next t1 ∧ t1.result = some (.word (h1 ++ l1)) ∧
      exec .drHtrx t1 = .next t2 ∧ t2.result = some (.word (h2 ++ l2)) ∧
      exec .drHtrx t2 = .next t3 ∧ t3.result = some (.word 0xbeef) ∧ t3.txde = true ∧ t3.hrdf = false

/-- 70_reset_and_hazards.md section 3 (R44, R251, R253): with the DSP-to-host path idle, of three words the DSP writes
without looking at HTDE the host reads the first and the third, high byte then low byte; the second is lost. -/
def Obligations.DspWordsReachTheHostAndOneIsLost : Prop :=
  ∀ (s : State) (w1 w2 w3 : Word), s.htde = true → s.rxdf = false →
    ∃ t a b c d e,
      execAll [.dwHtrx w1, .dwHtrx w2, .dwHtrx w3] s = .next t ∧
      exec .hrRxh t = .next a ∧ a.result = some (.byte (w1.extractLsb' 8 8)) ∧
      exec .hrRxl a = .next b ∧ b.result = some (.byte (w1.extractLsb' 0 8)) ∧
      exec .hrRxh b = .next c ∧ c.result = some (.byte (w3.extractLsb' 8 8)) ∧
      exec .hrRxl c = .next d ∧ d.result = some (.byte (w3.extractLsb' 0 8)) ∧
      exec .hrRxh d = .next e ∧ e.result = some (.byte 0xbf) ∧ d.htde = true ∧ d.rxdf = false

/-- R257 (the spec's own derivation): TXDE, once 1, stays 1 until a host write of offset 0x07, so a pair of byte writes
begun with TXDE = 1 is not split by events that come between. -/
def Obligations.OnlyTheLowByteWriteClearsTxde : Prop :=
  ∀ (is : List Instr) (s t : State), (∀ i ∈ is, ∀ b, i ≠ .hwTxl b) → s.txde = true →
    execAll is s = .next t → t.txde = true

/-! ## The bootstrap -/

/-- 43_bootstrap_loader.md section 2 (R147; that the offset stays is the spec's own derivation; the byte lanes and the
PMEM output in them are the model's choice, assumption log 9): while the bootstrap is active a host write of 0x06
stores the high byte of the word at the offset, keeps the low one, and changes nothing else. -/
def Obligations.BootWriteOfHighByte : Prop :=
  ∀ (s : State) (d : Byte), s.bootMode = .active → s.bootOffset < 0x800 →
    ∃ t, exec (.hwTxh d) s = .next t ∧
      t = { s with
              pmem := t.pmem
              outs := s.outs ++ [.pmem s.bootOffset (some d) (Memory.read s.pmem (laneLow s.bootOffset))] } ∧
      ∀ a, Memory.read t.pmem a = if a = laneHigh s.bootOffset then some d else Memory.read s.pmem a

/-- 43_bootstrap_loader.md section 2 (R148, R149; the silent completion is the spec's decision D22; the byte lanes and
the PMEM output in them are the model's choice, assumption log 9): while the bootstrap is active a host write of 0x07
stores the low byte of the word at the offset, keeps the high one, advances the offset, deactivates the bootstrap when
it reaches 0x800, and changes nothing else. -/
def Obligations.BootWriteOfLowByte : Prop :=
  ∀ (s : State) (d : Byte), s.bootMode = .active → s.bootOffset < 0x800 →
    ∃ t, exec (.hwTxl d) s = .next t ∧
      t = { s with
              pmem := t.pmem
              bootOffset := s.bootOffset + 1
              bootMode := if s.bootOffset = 0x7ff then .off else .active
              outs := s.outs ++ [.pmem s.bootOffset (Memory.read s.pmem (laneHigh s.bootOffset)) (some d)] } ∧
      ∀ a, Memory.read t.pmem a = if a = laneLow s.bootOffset then some d else Memory.read s.pmem a

/-- R150: an aborting write turns the bootstrap off, leaves the offset, sets the program counter to 0, and applies none
of its bits, but for HF0 and its mirror when ABORT_LATCHES_HF0 is true. -/
def Obligations.BootAbort : Prop :=
  ∀ (s : State) (b : Byte), s.bootMode = .active → b.getLsbD 3 = true →
    exec (.hwIcr b) s = .next { s with
      bootMode := .off
      icr := if s.cfg.abortLatchesHf0 then s.icr ||| 0x08#8 else s.icr
      hsr := if s.cfg.abortLatchesHf0 then s.hsr ||| 0x0008#16 else s.hsr
      outs := s.outs ++ [.pcSet 0] }

/-- 43_bootstrap_loader.md section 2 (R147 to R149, with the spec's decision D22) over a whole stream, in the byte lanes
of program memory, which are the model's choice (assumption log 9): from an active bootstrap at offset k, n pairs
of bytes with k + n at most 0x800 all complete; the words k to k + n - 1 of program memory are those pairs, every other
lane is unchanged, the offset is k + n, and the bootstrap is off exactly when that is 0x800. -/
def Obligations.BootstrapLoadsTheStreamedImage : Prop :=
  ∀ (image : List (Byte × Byte)) (s : State), s.bootMode = .active → s.bootOffset < 0x800 →
    s.bootOffset + image.length ≤ 0x800 →
    ∃ t, execAll (image.flatMap (fun p => [.hwTxh p.1, .hwTxl p.2])) s = .next t ∧
      t.bootOffset = s.bootOffset + image.length ∧
      (t.bootMode = .off ↔ s.bootOffset + image.length = 0x800) ∧
      (∀ (j : Nat) (hj : j < image.length),
        Memory.read t.pmem (laneHigh (s.bootOffset + j)) = some image[j].1 ∧
        Memory.read t.pmem (laneLow (s.bootOffset + j)) = some image[j].2) ∧
      (∀ a, a < laneHigh s.bootOffset ∨ laneHigh (s.bootOffset + image.length) ≤ a →
        Memory.read t.pmem a = Memory.read s.pmem a) ∧
      t.txh = s.txh ∧ t.txl = s.txl ∧ t.isr = s.isr ∧ t.hsr = s.hsr

/-- R146 (in part the spec's own derivation): while the bootstrap is active, every event but a host write of 0x06,
0x07, or 0x00 with bit 3 set, and RESET, does exactly what it does when the mode is OFF, and leaves the mode and the
offset. -/
def Obligations.BootstrapModeChangesThreeWritesOnly : Prop :=
  ∀ (i : Instr) (s t : State), i ≠ .reset → (∀ b, i ≠ .hwTxh b) → (∀ b, i ≠ .hwTxl b) →
    (∀ b, b.getLsbD 3 = true → i ≠ .hwIcr b) → exec i s = .next t →
    t.bootMode = s.bootMode ∧ t.bootOffset = s.bootOffset ∧
    exec i { s with bootMode := .off } = .next { t with bootMode := .off }

/-! ## Requests and outputs -/

/-- R220: which events raise which request, and that its flag and its enable are 1 when it is raised. -/
def Obligations.RequestsAreRaisedExactlyThen : Prop :=
  ∀ (i : Instr) (s t : State), exec i s = .next t → ∃ new, t.outs = s.outs ++ new ∧
    (.irq .hostCommand ∈ new ↔ ∃ b, i = .hwCvr b ∧ b.getLsbD 7 = true ∧ s.hcie = true) ∧
    (.irq .hostReceiveData ∈ new ↔ s.hrie = true ∧
      ((∃ b, i = .hwTxl b ∧ s.bootMode = .off ∧ s.txde = true ∧ s.hrdf = false) ∨
        i = .drHtrx ∧ s.hrdf = true ∧ s.txde = false)) ∧
    (.irq .hostTransmitData ∈ new ↔ s.htie = true ∧
      ((∃ w, i = .dwHtrx w ∧ s.rxdf = false) ∨ i = .hrRxl ∧ s.rxdf = true ∧ s.htde = false)) ∧
    (.irq .hostCommand ∈ new → t.hcp = true ∧ t.hcie = true) ∧
    (.irq .hostReceiveData ∈ new → t.hrdf = true ∧ t.hrie = true) ∧
    (.irq .hostTransmitData ∈ new → t.htde = true ∧ t.htie = true)

/-- 42_handshake_engine.md section 4 and 60_exceptions.md sections 1 and 2 (R133, R219, R225): an event emits at most
one request and at most one diagnostic, and a read never emits a diagnostic. -/
def Obligations.AtMostOneRequestAndDiagnostic : Prop :=
  ∀ (i : Instr) (s t : State), exec i s = .next t → ∃ new, t.outs = s.outs ++ new ∧
    (new.filter Output.isIrq).length ≤ 1 ∧ (new.filter Output.isDiag).length ≤ 1 ∧
    (isWriteEvent i = false → new.filter Output.isDiag = [])

/-- R136 (the spec's decision D16): a request is raised per call, not per edge: with HCIE = 1 and HCP already 1, each
further host write of CVR with bit 7 set raises Host Command again. -/
def Obligations.RepeatedCommandsRaiseAgain : Prop :=
  ∀ (bs : List Byte) (s t : State), s.hcie = true → (∀ b ∈ bs, b.getLsbD 7 = true) →
    execAll (bs.map .hwCvr) s = .next t →
    (t.outs.filter (· == .irq .hostCommand)).length =
      (s.outs.filter (· == .irq .hostCommand)).length + bs.length

/-- R223 (the spec's decision D28): no event consults IPR when it raises: with any other IPR it emits the same outputs.
-/
def Obligations.RaisingIgnoresIpr : Prop :=
  ∀ (i : Instr) (s t : State) (x : Word), exec i s = .next t →
    ∃ t', exec i { s with ipr := x } = .next t' ∧ t'.outs = t.outs

/-! ## What an event can reach -/

/-- R47 (in part the spec's decision D14): exactly two read events change state, each only with its flag set; every
other read leaves everything but the result, and so does nothing more when repeated. -/
def Obligations.OnlyTwoReadsChangeState : Prop :=
  (∀ (i : Instr) (s t : State), isWriteEvent i = false → i ≠ .reset → exec i s = .next t →
    ¬(i = .drHtrx ∧ s.hrdf = true) → ¬(i = .hrRxl ∧ s.rxdf = true) →
    t = { s with result := t.result } ∧ exec i t = .next t) ∧
  (∀ s t : State, s.hrdf = true → exec .drHtrx s = .next t → t ≠ { s with result := t.result }) ∧
  (∀ s t : State, s.rxdf = true → exec .hrRxl s = .next t → t ≠ { s with result := t.result })

/-- R204 (the spec's own derivation): what a host-side event cannot change, and which host-side events change nothing.
-/
def Obligations.HostEventFrame : Prop :=
  (∀ (i : Instr) (s t : State), isHostEvent i = true → exec i s = .next t →
    t.hcr = s.hcr ∧ t.ipr = s.ipr ∧ t.htx = s.htx ∧ t.p = s.p ∧ t.hsr &&& 0xffe0#16 = s.hsr &&& 0xffe0#16 ∧
    t.cfg = s.cfg ∧ t.queue = s.queue ∧ t.freeCount = s.freeCount) ∧
  (∀ (i : Instr) (s t : State), isHostEvent i = true → isWriteEvent i = false → exec i s = .next t →
    i = .hrRxl ∨ t = { s with result := t.result }) ∧
  (∀ s t : State, s.rxdf = true → exec .hrRxl s = .next t → t ≠ { s with result := t.result }) ∧
  (∀ (i : Instr) (s t : State) (b o : Byte),
    (i ∈ [.hwIsr b, .hwUnused4 b, .hwRsvd5 b, .hwInvalid o b] ∨
      i ∈ [.hwTxh b, .hwTxl b] ∧ s.txde = false ∧ s.bootMode = .off) →
    exec i s = .next t → t = { s with outs := t.outs })

/-- R180 (the spec's own derivation): what a DSP-side event cannot change, which DSP read changes state, and which
DSP-side events emit what. -/
def Obligations.DspEventFrame : Prop :=
  (∀ (i : Instr) (s t : State), isDspEvent i = true → exec i s = .next t →
    t.icr = s.icr ∧ t.cvr = s.cvr ∧ t.ivr = s.ivr ∧ t.txh = s.txh ∧ t.txl = s.txl ∧
    t.bootMode = s.bootMode ∧ t.bootOffset = s.bootOffset ∧
    t.pmem = s.pmem ∧ t.cfg = s.cfg ∧ t.queue = s.queue ∧ t.freeCount = s.freeCount) ∧
  (∀ (i : Instr) (s t : State), isDspEvent i = true → isWriteEvent i = false → exec i s = .next t →
    i = .drHtrx ∨ t = { s with result := t.result }) ∧
  (∀ s t : State, s.hrdf = true → exec .drHtrx s = .next t → t ≠ { s with result := t.result }) ∧
  (∀ (i : Instr) (s t : State), isDspEvent i = true → exec i s = .next t → ∃ new, t.outs = s.outs ++ new ∧
    ∀ o ∈ new, o.isDiag = true ∨ (i = .drHtrx ∧ o = .irq .hostReceiveData) ∨
      (∃ w, i = .dwHtrx w ∧ o = .irq .hostTransmitData) ∨ (∃ w, i = .dwPcd w ∧ o = .portC (w &&& s.cfg.maskPcd)))

/-- 10_state.md section 10 (R35), the read columns: what a DSP read returns depends on the DSP-visible registers alone,
and what a host read returns on the host-visible ones (and the configuration). -/
def Obligations.ReadsDependOnTheirOwnSide : Prop :=
  (∀ (i : Instr) (s s' t t' : State), isDspEvent i = true → isWriteEvent i = false →
    s.hcr = s'.hcr → s.hsr = s'.hsr → s.hrx = s'.hrx → s.ipr = s'.ipr → s.p = s'.p →
    exec i s = .next t → exec i s' = .next t' → t.result = t'.result) ∧
  (∀ (i : Instr) (s s' t t' : State), isHostEvent i = true → isWriteEvent i = false →
    s.icr = s'.icr → s.cvr = s'.cvr → s.isr = s'.isr → s.ivr = s'.ivr → s.rxh = s'.rxh → s.rxl = s'.rxl →
    s.cfg.hostRd5 = s'.cfg.hostRd5 →
    exec i s = .next t → exec i s' = .next t' → t.result = t'.result)

/-- 00_scope.md section 4 and 20_memory.md section 1 (R7, R43): no event changes the configuration, and only the two
bootstrap writes, in the ACTIVE mode, change program memory. -/
def Obligations.ConfigurationAndProgramMemoryFrame : Prop :=
  ∀ (i : Instr) (s t : State), exec i s = .next t →
    t.cfg = s.cfg ∧ (t.pmem ≠ s.pmem → s.bootMode = .active ∧ ∃ b, i = .hwTxh b ∨ i = .hwTxl b)

/-! ## The Interrupt Priority Decoder -/

/-- 41_interrupt_priority_decoder.md sections 1 and 2 (R110 to R120; the position of IRQA is the document's, the eight
others, R112 to R119, are the spec's decision D8): each level is its 2-bit field minus one as an integer, each trigger
mode its bit. -/
def Obligations.PriorityLevelsAreFieldMinusOne : Prop :=
  ∀ v : Word,
    (irqaIpl v).toInt = (v.toNat % 4 : Int) - 1 ∧ irqaTrigger v = decide (v.toNat / 4 % 2 = 1) ∧
    (irqbIpl v).toInt = (v.toNat / 8 % 4 : Int) - 1 ∧ irqbTrigger v = decide (v.toNat / 32 % 2 = 1) ∧
    (codecIpl v).toInt = (v.toNat / 64 % 4 : Int) - 1 ∧ (hostIpl v).toInt = (v.toNat / 256 % 4 : Int) - 1 ∧
    (ssi0Ipl v).toInt = (v.toNat / 1024 % 4 : Int) - 1 ∧ (ssi1Ipl v).toInt = (v.toNat / 4096 % 4 : Int) - 1 ∧
    (timerIpl v).toInt = (v.toNat / 16384 % 4 : Int) - 1

/-- R121 (the bijection is the spec's own derivation): the nine projections of 0x0000 and of 0xffff, and the map from
IPR to them is a bijection. -/
def Obligations.PriorityProjectionsAreABijection : Prop :=
  projections 0x0000#16 =
    ⟨.disabled, false, .disabled, false, .disabled, .disabled, .disabled, .disabled, .disabled⟩ ∧
  projections 0xffff#16 = ⟨.level2, true, .level2, true, .level2, .level2, .level2, .level2, .level2⟩ ∧
  Function.Bijective projections

/-- 41_interrupt_priority_decoder.md sections 1 and 2 and 60_exceptions.md section 2 (R120, R116, R223; the place of the
HOST field, bits 9:8, is the spec's decision D8; delivery is outside the block, and the model's requestLevel stands for
the level looked up then, assumption log 16): the level of every request is read from IPR when it is delivered: after a
DSP write of IPR it is the new HOST field minus one. -/
def Obligations.RequestLevelFollowsIpr : Prop :=
  ∀ (s : State) (w : Word) (tag : IrqTag), ∃ t, exec (.dwIpr w) s = .next t ∧
    (requestLevel tag t).toInt = (w.toNat / 256 % 4 : Int) - 1
end

