-- ==== Sys2Proof/Laws/Bits.lean ====
section
/-! SUPPORT. What a bit-field store does to every bit, and bytes of a joined word. -/

namespace Sys2Proof.Machine

/-- A bit of a field mask. -/
theorem getLsbD_fieldMask (w lo n j : Nat) :
    (fieldMask w lo n).getLsbD j = (decide (j < w) && decide (lo ≤ j) && decide (j < lo + n)) := by
  simp only [fieldMask, BitVec.getLsbD_shiftLeft, BitVec.getLsbD_setWidth, BitVec.getLsbD_allOnes]
  by_cases h1 : j < w <;> by_cases h2 : lo ≤ j <;> by_cases h3 : j < lo + n <;> simp [h1, h2, h3] <;> omega

/-- A bit after a field store: the field's bits are the value's, every other bit is unchanged. -/
theorem getLsbD_putField {w n : Nat} (r : BitVec w) (lo : Nat) (x : BitVec n) (j : Nat) :
    (putField r lo x).getLsbD j =
      if j < w ∧ lo ≤ j ∧ j < lo + n then x.getLsbD (j - lo) else r.getLsbD j := by
  simp only [putField, BitVec.getLsbD_or, BitVec.getLsbD_and, BitVec.getLsbD_not, getLsbD_fieldMask,
    BitVec.getLsbD_shiftLeft, BitVec.getLsbD_setWidth]
  by_cases h1 : j < w
  · by_cases h2 : lo ≤ j
    · by_cases h3 : j < lo + n
      · have h4 : j - lo < w := by omega
        have h5 : ¬ j < lo := by omega
        simp [h1, h2, h3, h4, h5]
      · have h4 : x.getLsbD (j - lo) = false := BitVec.getLsbD_of_ge _ _ (by omega)
        simp [h1, h3, h4]
    · have h5 : j < lo := by omega
      simp [h1, h2, h5]
  · have h4 : r.getLsbD j = false := BitVec.getLsbD_of_ge _ _ (by omega)
    simp [h1, h4]

/-- A bit after a one-bit store: the bit itself is the value, every other bit is unchanged. -/
@[simp] theorem getLsbD_putBit {w : Nat} (r : BitVec w) (k : Nat) (b : Bool) (j : Nat) :
    (putBit r k b).getLsbD j = if j < w ∧ j = k then b else r.getLsbD j := by
  rw [putBit, getLsbD_putField]
  by_cases h : j < w ∧ j = k
  · obtain ⟨h1, rfl⟩ := h
    simp [h1]
  · rw [if_neg h, if_neg (by omega)]

/-- Storing the value a bit already has changes nothing. -/
theorem putBit_self {w : Nat} (r : BitVec w) (k : Nat) (b : Bool) (h : r.getLsbD k = b) : putBit r k b = r := by
  apply BitVec.eq_of_getLsbD_eq
  intro j hj
  rw [getLsbD_putBit]
  split
  · next hk => rw [hk.2, h]
  · rfl

/-- The later of two stores to one bit wins. -/
@[simp] theorem putBit_putBit {w : Nat} (r : BitVec w) (k : Nat) (a b : Bool) :
    putBit (putBit r k a) k b = putBit r k b := by
  apply BitVec.eq_of_getLsbD_eq
  intro j hj
  simp only [getLsbD_putBit]
  split <;> rfl

/-- A bit of a joined word. -/
theorem getLsbD_joinBytes (h l : Byte) (j : Nat) :
    (joinBytes h l).getLsbD j = if j < 8 then l.getLsbD j else h.getLsbD (j - 8) :=
  BitVec.getLsbD_append

/-- The high byte of a joined word. -/
@[simp] theorem highByte_joinBytes (h l : Byte) : highByte (joinBytes h l) = h := by
  apply BitVec.eq_of_getLsbD_eq
  intro j hj
  simp only [highByte, BitVec.getLsbD_extractLsb', getLsbD_joinBytes]
  rw [if_neg (by omega), Nat.add_sub_cancel_left]
  simp [hj]

/-- The low byte of a joined word. -/
@[simp] theorem lowByte_joinBytes (h l : Byte) : lowByte (joinBytes h l) = l := by
  apply BitVec.eq_of_getLsbD_eq
  intro j hj
  simp [lowByte, getLsbD_joinBytes, hj]

/-- A word is its bytes, joined. -/
@[simp] theorem joinBytes_highByte_lowByte (w : Word) : joinBytes (highByte w) (lowByte w) = w := by
  apply BitVec.eq_of_getLsbD_eq
  intro j hj
  simp only [highByte, lowByte, joinBytes, BitVec.getLsbD_append, BitVec.getLsbD_extractLsb']
  by_cases h8 : j < 8
  · simp [h8]
  · have e : 8 + (j - 8) = j := by omega
    have hlt : j - 8 < 8 := by omega
    simp [h8, e, hlt]

end Sys2Proof.Machine
end

