-- ==== Sys2Proof/Laws/Encoding.lean ====
section
/-! SUPPORT. The fields of an event word built from its four parts, and of the words the encoder builds. -/

namespace Sys2Proof

/-- E[34:33] of a built word. -/
@[simp] theorem evAgent_eventWord (a : BitVec 2) (w : Bool) (x d : Word) : evAgent (eventWord a w x d) = a := by
  apply BitVec.eq_of_getLsbD_eq
  intro j hj
  simp only [evAgent, BitVec.getLsbD_extractLsb', hj, decide_true, Bool.true_and]
  show BitVec.getLsbD (((a ++ BitVec.ofBool w) ++ x) ++ d : BitVec (2 + 1 + 16 + 16)) (33 + j) = _
  rw [BitVec.getLsbD_append, if_neg (by omega), BitVec.getLsbD_append, if_neg (by omega), BitVec.getLsbD_append,
    if_neg (by omega)]
  congr 1
  omega

/-- E[32] of a built word. -/
@[simp] theorem evWrite_eventWord (a : BitVec 2) (w : Bool) (x d : Word) : evWrite (eventWord a w x d) = w := by
  show BitVec.getLsbD (((a ++ BitVec.ofBool w) ++ x) ++ d : BitVec (2 + 1 + 16 + 16)) 32 = _
  rw [BitVec.getLsbD_append, if_neg (by omega), BitVec.getLsbD_append, if_neg (by omega), BitVec.getLsbD_append,
    if_pos (by omega)]
  cases w <;> rfl

/-- E[31:16] of a built word. -/
@[simp] theorem evAddr_eventWord (a : BitVec 2) (w : Bool) (x d : Word) : evAddr (eventWord a w x d) = x := by
  apply BitVec.eq_of_getLsbD_eq
  intro j hj
  simp only [evAddr, BitVec.getLsbD_extractLsb', hj, decide_true, Bool.true_and]
  show BitVec.getLsbD (((a ++ BitVec.ofBool w) ++ x) ++ d : BitVec (2 + 1 + 16 + 16)) (16 + j) = _
  rw [BitVec.getLsbD_append, if_neg (by omega), BitVec.getLsbD_append, if_pos (by omega)]
  congr 1
  omega

/-- E[15:0] of a built word. -/
@[simp] theorem evData_eventWord (a : BitVec 2) (w : Bool) (x d : Word) : evData (eventWord a w x d) = d := by
  apply BitVec.eq_of_getLsbD_eq
  intro j hj
  simp only [evData, BitVec.getLsbD_extractLsb', hj, decide_true, Bool.true_and]
  show BitVec.getLsbD (((a ++ BitVec.ofBool w) ++ x) ++ d : BitVec (2 + 1 + 16 + 16)) (0 + j) = _
  rw [BitVec.getLsbD_append, if_pos (by omega)]
  congr 1
  omega

/-- The bytes of a byte widened to a word. -/
theorem bytes_setWidth (x : Byte) :
    (x.setWidth 16).extractLsb' 0 8 = x ∧ (x.setWidth 16).extractLsb' 8 8 = 0#8 := by
  constructor
  · apply BitVec.eq_of_getLsbD_eq
    intro j hj
    simp [BitVec.getLsbD_setWidth, hj]
    omega
  · apply BitVec.eq_of_getLsbD_eq
    intro j hj
    simp [BitVec.getLsbD_extractLsb', BitVec.getLsbD_setWidth]

/-- A host read at any offset is an event. -/
theorem isEvent_encodeHostRead (o : Byte) : isEvent (encodeHostRead o) = true := by
  simp [isEvent, encodeHostRead, bytes_setWidth]

/-- A host write at any offset is an event. -/
theorem isEvent_encodeHostWrite (o b : Byte) : isEvent (encodeHostWrite o b) = true := by
  simp [isEvent, encodeHostWrite, bytes_setWidth]

/-- A DSP read in the window is an event. -/
theorem isEvent_encodeDspRead (a : Word) (h : inWindow a = true) : isEvent (encodeDspRead a) = true := by
  simp [isEvent, encodeDspRead, h]

/-- A DSP write in the window is an event. -/
theorem isEvent_encodeDspWrite (a w : Word) (h : inWindow a = true) : isEvent (encodeDspWrite a w) = true := by
  simp [isEvent, encodeDspWrite, h]

/-- The window is 0xffc0 to 0xffff (20_memory.md R42). -/
theorem inWindow_iff (a : Word) : inWindow a = true ↔ 0xffc0 ≤ a.toNat := by
  simp only [inWindow, decide_eq_true_eq, dspCount, BitVec.toNat_sub, Layout.dspBase,
    BitVec.toNat_ofNat]
  have := a.isLt
  omega

/-- An unnamed address is in the window. -/
theorem inWindow_of_isPlainAddr (a : Word) (h : isPlainAddr a = true) : inWindow a = true := by
  simp only [isPlainAddr, Bool.and_eq_true] at h
  exact h.1

end Sys2Proof
end

