-- ==== Sys2Proof/Laws/State.lean ====
section
/-! SUPPORT. One lemma for each field of State under each named update, so that no proof unfolds a record update. -/

namespace Sys2Proof.Machine

/-! ## emit -/

@[simp] theorem emit_icr (o : Output) (s : State) : (emit o s).icr = s.icr := rfl
@[simp] theorem emit_cvr (o : Output) (s : State) : (emit o s).cvr = s.cvr := rfl
@[simp] theorem emit_isr (o : Output) (s : State) : (emit o s).isr = s.isr := rfl
@[simp] theorem emit_ivr (o : Output) (s : State) : (emit o s).ivr = s.ivr := rfl
@[simp] theorem emit_txh (o : Output) (s : State) : (emit o s).txh = s.txh := rfl
@[simp] theorem emit_txl (o : Output) (s : State) : (emit o s).txl = s.txl := rfl
@[simp] theorem emit_rxh (o : Output) (s : State) : (emit o s).rxh = s.rxh := rfl
@[simp] theorem emit_rxl (o : Output) (s : State) : (emit o s).rxl = s.rxl := rfl
@[simp] theorem emit_hcr (o : Output) (s : State) : (emit o s).hcr = s.hcr := rfl
@[simp] theorem emit_hsr (o : Output) (s : State) : (emit o s).hsr = s.hsr := rfl
@[simp] theorem emit_htx (o : Output) (s : State) : (emit o s).htx = s.htx := rfl
@[simp] theorem emit_hrx (o : Output) (s : State) : (emit o s).hrx = s.hrx := rfl
@[simp] theorem emit_ipr (o : Output) (s : State) : (emit o s).ipr = s.ipr := rfl
@[simp] theorem emit_p (o : Output) (s : State) : (emit o s).p = s.p := rfl
@[simp] theorem emit_bootMode (o : Output) (s : State) : (emit o s).bootMode = s.bootMode := rfl
@[simp] theorem emit_bootOffset (o : Output) (s : State) : (emit o s).bootOffset = s.bootOffset := rfl
@[simp] theorem emit_pmem (o : Output) (s : State) : (emit o s).pmem = s.pmem := rfl
@[simp] theorem emit_cfg (o : Output) (s : State) : (emit o s).cfg = s.cfg := rfl
@[simp] theorem emit_freeCount (o : Output) (s : State) : (emit o s).freeCount = s.freeCount := rfl
@[simp] theorem emit_queue (o : Output) (s : State) : (emit o s).queue = s.queue := rfl
@[simp] theorem emit_result (o : Output) (s : State) : (emit o s).result = s.result := rfl
@[simp] theorem emit_outs (o : Output) (s : State) : (emit o s).outs = s.outs ++ [o] := rfl

/-! ## withResult -/

@[simp] theorem withResult_icr (r : ReadResult) (s : State) : (withResult r s).icr = s.icr := rfl
@[simp] theorem withResult_cvr (r : ReadResult) (s : State) : (withResult r s).cvr = s.cvr := rfl
@[simp] theorem withResult_isr (r : ReadResult) (s : State) : (withResult r s).isr = s.isr := rfl
@[simp] theorem withResult_ivr (r : ReadResult) (s : State) : (withResult r s).ivr = s.ivr := rfl
@[simp] theorem withResult_txh (r : ReadResult) (s : State) : (withResult r s).txh = s.txh := rfl
@[simp] theorem withResult_txl (r : ReadResult) (s : State) : (withResult r s).txl = s.txl := rfl
@[simp] theorem withResult_rxh (r : ReadResult) (s : State) : (withResult r s).rxh = s.rxh := rfl
@[simp] theorem withResult_rxl (r : ReadResult) (s : State) : (withResult r s).rxl = s.rxl := rfl
@[simp] theorem withResult_hcr (r : ReadResult) (s : State) : (withResult r s).hcr = s.hcr := rfl
@[simp] theorem withResult_hsr (r : ReadResult) (s : State) : (withResult r s).hsr = s.hsr := rfl
@[simp] theorem withResult_htx (r : ReadResult) (s : State) : (withResult r s).htx = s.htx := rfl
@[simp] theorem withResult_hrx (r : ReadResult) (s : State) : (withResult r s).hrx = s.hrx := rfl
@[simp] theorem withResult_ipr (r : ReadResult) (s : State) : (withResult r s).ipr = s.ipr := rfl
@[simp] theorem withResult_p (r : ReadResult) (s : State) : (withResult r s).p = s.p := rfl
@[simp] theorem withResult_bootMode (r : ReadResult) (s : State) : (withResult r s).bootMode = s.bootMode := rfl
@[simp] theorem withResult_bootOffset (r : ReadResult) (s : State) : (withResult r s).bootOffset = s.bootOffset := rfl
@[simp] theorem withResult_pmem (r : ReadResult) (s : State) : (withResult r s).pmem = s.pmem := rfl
@[simp] theorem withResult_cfg (r : ReadResult) (s : State) : (withResult r s).cfg = s.cfg := rfl
@[simp] theorem withResult_freeCount (r : ReadResult) (s : State) : (withResult r s).freeCount = s.freeCount := rfl
@[simp] theorem withResult_queue (r : ReadResult) (s : State) : (withResult r s).queue = s.queue := rfl
@[simp] theorem withResult_result (r : ReadResult) (s : State) : (withResult r s).result = some r := rfl
@[simp] theorem withResult_outs (r : ReadResult) (s : State) : (withResult r s).outs = s.outs := rfl

/-! ## writeP -/

@[simp] theorem writeP_icr (i : Fin dspCount) (v : Word) (s : State) : (writeP i v s).icr = s.icr := rfl
@[simp] theorem writeP_cvr (i : Fin dspCount) (v : Word) (s : State) : (writeP i v s).cvr = s.cvr := rfl
@[simp] theorem writeP_isr (i : Fin dspCount) (v : Word) (s : State) : (writeP i v s).isr = s.isr := rfl
@[simp] theorem writeP_ivr (i : Fin dspCount) (v : Word) (s : State) : (writeP i v s).ivr = s.ivr := rfl
@[simp] theorem writeP_txh (i : Fin dspCount) (v : Word) (s : State) : (writeP i v s).txh = s.txh := rfl
@[simp] theorem writeP_txl (i : Fin dspCount) (v : Word) (s : State) : (writeP i v s).txl = s.txl := rfl
@[simp] theorem writeP_rxh (i : Fin dspCount) (v : Word) (s : State) : (writeP i v s).rxh = s.rxh := rfl
@[simp] theorem writeP_rxl (i : Fin dspCount) (v : Word) (s : State) : (writeP i v s).rxl = s.rxl := rfl
@[simp] theorem writeP_hcr (i : Fin dspCount) (v : Word) (s : State) : (writeP i v s).hcr = s.hcr := rfl
@[simp] theorem writeP_hsr (i : Fin dspCount) (v : Word) (s : State) : (writeP i v s).hsr = s.hsr := rfl
@[simp] theorem writeP_htx (i : Fin dspCount) (v : Word) (s : State) : (writeP i v s).htx = s.htx := rfl
@[simp] theorem writeP_hrx (i : Fin dspCount) (v : Word) (s : State) : (writeP i v s).hrx = s.hrx := rfl
@[simp] theorem writeP_ipr (i : Fin dspCount) (v : Word) (s : State) : (writeP i v s).ipr = s.ipr := rfl
@[simp] theorem writeP_p (i : Fin dspCount) (v : Word) (s : State) : (writeP i v s).p = s.p.set i v := rfl
@[simp] theorem writeP_bootMode (i : Fin dspCount) (v : Word) (s : State) : (writeP i v s).bootMode = s.bootMode := rfl
@[simp] theorem writeP_bootOffset (i : Fin dspCount) (v : Word) (s : State) : (writeP i v s).bootOffset = s.bootOffset := rfl
@[simp] theorem writeP_pmem (i : Fin dspCount) (v : Word) (s : State) : (writeP i v s).pmem = s.pmem := rfl
@[simp] theorem writeP_cfg (i : Fin dspCount) (v : Word) (s : State) : (writeP i v s).cfg = s.cfg := rfl
@[simp] theorem writeP_freeCount (i : Fin dspCount) (v : Word) (s : State) : (writeP i v s).freeCount = s.freeCount := rfl
@[simp] theorem writeP_queue (i : Fin dspCount) (v : Word) (s : State) : (writeP i v s).queue = s.queue := rfl
@[simp] theorem writeP_result (i : Fin dspCount) (v : Word) (s : State) : (writeP i v s).result = s.result := rfl
@[simp] theorem writeP_outs (i : Fin dspCount) (v : Word) (s : State) : (writeP i v s).outs = s.outs := rfl

/-! ## arrive -/

@[simp] theorem arrive_icr (q : List EventWord) (s : State) : (arrive q s).icr = s.icr := rfl
@[simp] theorem arrive_cvr (q : List EventWord) (s : State) : (arrive q s).cvr = s.cvr := rfl
@[simp] theorem arrive_isr (q : List EventWord) (s : State) : (arrive q s).isr = s.isr := rfl
@[simp] theorem arrive_ivr (q : List EventWord) (s : State) : (arrive q s).ivr = s.ivr := rfl
@[simp] theorem arrive_txh (q : List EventWord) (s : State) : (arrive q s).txh = s.txh := rfl
@[simp] theorem arrive_txl (q : List EventWord) (s : State) : (arrive q s).txl = s.txl := rfl
@[simp] theorem arrive_rxh (q : List EventWord) (s : State) : (arrive q s).rxh = s.rxh := rfl
@[simp] theorem arrive_rxl (q : List EventWord) (s : State) : (arrive q s).rxl = s.rxl := rfl
@[simp] theorem arrive_hcr (q : List EventWord) (s : State) : (arrive q s).hcr = s.hcr := rfl
@[simp] theorem arrive_hsr (q : List EventWord) (s : State) : (arrive q s).hsr = s.hsr := rfl
@[simp] theorem arrive_htx (q : List EventWord) (s : State) : (arrive q s).htx = s.htx := rfl
@[simp] theorem arrive_hrx (q : List EventWord) (s : State) : (arrive q s).hrx = s.hrx := rfl
@[simp] theorem arrive_ipr (q : List EventWord) (s : State) : (arrive q s).ipr = s.ipr := rfl
@[simp] theorem arrive_p (q : List EventWord) (s : State) : (arrive q s).p = s.p := rfl
@[simp] theorem arrive_bootMode (q : List EventWord) (s : State) : (arrive q s).bootMode = s.bootMode := rfl
@[simp] theorem arrive_bootOffset (q : List EventWord) (s : State) : (arrive q s).bootOffset = s.bootOffset := rfl
@[simp] theorem arrive_pmem (q : List EventWord) (s : State) : (arrive q s).pmem = s.pmem := rfl
@[simp] theorem arrive_cfg (q : List EventWord) (s : State) : (arrive q s).cfg = s.cfg := rfl
@[simp] theorem arrive_freeCount (q : List EventWord) (s : State) : (arrive q s).freeCount = s.freeCount := rfl
@[simp] theorem arrive_queue (q : List EventWord) (s : State) : (arrive q s).queue = q := rfl
@[simp] theorem arrive_result (q : List EventWord) (s : State) : (arrive q s).result = none := rfl
@[simp] theorem arrive_outs (q : List EventWord) (s : State) : (arrive q s).outs = [] := rfl

/-! ## setHF1 -/

@[simp] theorem setHF1_icr (b : Bool) (s : State) : (setHF1 b s).icr = putBit s.icr Layout.icrHF1 b := rfl
@[simp] theorem setHF1_cvr (b : Bool) (s : State) : (setHF1 b s).cvr = s.cvr := rfl
@[simp] theorem setHF1_isr (b : Bool) (s : State) : (setHF1 b s).isr = s.isr := rfl
@[simp] theorem setHF1_ivr (b : Bool) (s : State) : (setHF1 b s).ivr = s.ivr := rfl
@[simp] theorem setHF1_txh (b : Bool) (s : State) : (setHF1 b s).txh = s.txh := rfl
@[simp] theorem setHF1_txl (b : Bool) (s : State) : (setHF1 b s).txl = s.txl := rfl
@[simp] theorem setHF1_rxh (b : Bool) (s : State) : (setHF1 b s).rxh = s.rxh := rfl
@[simp] theorem setHF1_rxl (b : Bool) (s : State) : (setHF1 b s).rxl = s.rxl := rfl
@[simp] theorem setHF1_hcr (b : Bool) (s : State) : (setHF1 b s).hcr = s.hcr := rfl
@[simp] theorem setHF1_hsr (b : Bool) (s : State) : (setHF1 b s).hsr = putBit s.hsr Layout.hsrHF1 b := rfl
@[simp] theorem setHF1_htx (b : Bool) (s : State) : (setHF1 b s).htx = s.htx := rfl
@[simp] theorem setHF1_hrx (b : Bool) (s : State) : (setHF1 b s).hrx = s.hrx := rfl
@[simp] theorem setHF1_ipr (b : Bool) (s : State) : (setHF1 b s).ipr = s.ipr := rfl
@[simp] theorem setHF1_p (b : Bool) (s : State) : (setHF1 b s).p = s.p := rfl
@[simp] theorem setHF1_bootMode (b : Bool) (s : State) : (setHF1 b s).bootMode = s.bootMode := rfl
@[simp] theorem setHF1_bootOffset (b : Bool) (s : State) : (setHF1 b s).bootOffset = s.bootOffset := rfl
@[simp] theorem setHF1_pmem (b : Bool) (s : State) : (setHF1 b s).pmem = s.pmem := rfl
@[simp] theorem setHF1_cfg (b : Bool) (s : State) : (setHF1 b s).cfg = s.cfg := rfl
@[simp] theorem setHF1_freeCount (b : Bool) (s : State) : (setHF1 b s).freeCount = s.freeCount := rfl
@[simp] theorem setHF1_queue (b : Bool) (s : State) : (setHF1 b s).queue = s.queue := rfl
@[simp] theorem setHF1_result (b : Bool) (s : State) : (setHF1 b s).result = s.result := rfl
@[simp] theorem setHF1_outs (b : Bool) (s : State) : (setHF1 b s).outs = s.outs := rfl

/-! ## setHF0 -/

@[simp] theorem setHF0_icr (b : Bool) (s : State) : (setHF0 b s).icr = putBit s.icr Layout.icrHF0 b := rfl
@[simp] theorem setHF0_cvr (b : Bool) (s : State) : (setHF0 b s).cvr = s.cvr := rfl
@[simp] theorem setHF0_isr (b : Bool) (s : State) : (setHF0 b s).isr = s.isr := rfl
@[simp] theorem setHF0_ivr (b : Bool) (s : State) : (setHF0 b s).ivr = s.ivr := rfl
@[simp] theorem setHF0_txh (b : Bool) (s : State) : (setHF0 b s).txh = s.txh := rfl
@[simp] theorem setHF0_txl (b : Bool) (s : State) : (setHF0 b s).txl = s.txl := rfl
@[simp] theorem setHF0_rxh (b : Bool) (s : State) : (setHF0 b s).rxh = s.rxh := rfl
@[simp] theorem setHF0_rxl (b : Bool) (s : State) : (setHF0 b s).rxl = s.rxl := rfl
@[simp] theorem setHF0_hcr (b : Bool) (s : State) : (setHF0 b s).hcr = s.hcr := rfl
@[simp] theorem setHF0_hsr (b : Bool) (s : State) : (setHF0 b s).hsr = putBit s.hsr Layout.hsrHF0 b := rfl
@[simp] theorem setHF0_htx (b : Bool) (s : State) : (setHF0 b s).htx = s.htx := rfl
@[simp] theorem setHF0_hrx (b : Bool) (s : State) : (setHF0 b s).hrx = s.hrx := rfl
@[simp] theorem setHF0_ipr (b : Bool) (s : State) : (setHF0 b s).ipr = s.ipr := rfl
@[simp] theorem setHF0_p (b : Bool) (s : State) : (setHF0 b s).p = s.p := rfl
@[simp] theorem setHF0_bootMode (b : Bool) (s : State) : (setHF0 b s).bootMode = s.bootMode := rfl
@[simp] theorem setHF0_bootOffset (b : Bool) (s : State) : (setHF0 b s).bootOffset = s.bootOffset := rfl
@[simp] theorem setHF0_pmem (b : Bool) (s : State) : (setHF0 b s).pmem = s.pmem := rfl
@[simp] theorem setHF0_cfg (b : Bool) (s : State) : (setHF0 b s).cfg = s.cfg := rfl
@[simp] theorem setHF0_freeCount (b : Bool) (s : State) : (setHF0 b s).freeCount = s.freeCount := rfl
@[simp] theorem setHF0_queue (b : Bool) (s : State) : (setHF0 b s).queue = s.queue := rfl
@[simp] theorem setHF0_result (b : Bool) (s : State) : (setHF0 b s).result = s.result := rfl
@[simp] theorem setHF0_outs (b : Bool) (s : State) : (setHF0 b s).outs = s.outs := rfl

/-! ## setHF3 -/

@[simp] theorem setHF3_icr (b : Bool) (s : State) : (setHF3 b s).icr = s.icr := rfl
@[simp] theorem setHF3_cvr (b : Bool) (s : State) : (setHF3 b s).cvr = s.cvr := rfl
@[simp] theorem setHF3_isr (b : Bool) (s : State) : (setHF3 b s).isr = putBit s.isr Layout.isrHF3 b := rfl
@[simp] theorem setHF3_ivr (b : Bool) (s : State) : (setHF3 b s).ivr = s.ivr := rfl
@[simp] theorem setHF3_txh (b : Bool) (s : State) : (setHF3 b s).txh = s.txh := rfl
@[simp] theorem setHF3_txl (b : Bool) (s : State) : (setHF3 b s).txl = s.txl := rfl
@[simp] theorem setHF3_rxh (b : Bool) (s : State) : (setHF3 b s).rxh = s.rxh := rfl
@[simp] theorem setHF3_rxl (b : Bool) (s : State) : (setHF3 b s).rxl = s.rxl := rfl
@[simp] theorem setHF3_hcr (b : Bool) (s : State) : (setHF3 b s).hcr = putBit s.hcr Layout.hcrHF3 b := rfl
@[simp] theorem setHF3_hsr (b : Bool) (s : State) : (setHF3 b s).hsr = s.hsr := rfl
@[simp] theorem setHF3_htx (b : Bool) (s : State) : (setHF3 b s).htx = s.htx := rfl
@[simp] theorem setHF3_hrx (b : Bool) (s : State) : (setHF3 b s).hrx = s.hrx := rfl
@[simp] theorem setHF3_ipr (b : Bool) (s : State) : (setHF3 b s).ipr = s.ipr := rfl
@[simp] theorem setHF3_p (b : Bool) (s : State) : (setHF3 b s).p = s.p := rfl
@[simp] theorem setHF3_bootMode (b : Bool) (s : State) : (setHF3 b s).bootMode = s.bootMode := rfl
@[simp] theorem setHF3_bootOffset (b : Bool) (s : State) : (setHF3 b s).bootOffset = s.bootOffset := rfl
@[simp] theorem setHF3_pmem (b : Bool) (s : State) : (setHF3 b s).pmem = s.pmem := rfl
@[simp] theorem setHF3_cfg (b : Bool) (s : State) : (setHF3 b s).cfg = s.cfg := rfl
@[simp] theorem setHF3_freeCount (b : Bool) (s : State) : (setHF3 b s).freeCount = s.freeCount := rfl
@[simp] theorem setHF3_queue (b : Bool) (s : State) : (setHF3 b s).queue = s.queue := rfl
@[simp] theorem setHF3_result (b : Bool) (s : State) : (setHF3 b s).result = s.result := rfl
@[simp] theorem setHF3_outs (b : Bool) (s : State) : (setHF3 b s).outs = s.outs := rfl

/-! ## setHF2 -/

@[simp] theorem setHF2_icr (b : Bool) (s : State) : (setHF2 b s).icr = s.icr := rfl
@[simp] theorem setHF2_cvr (b : Bool) (s : State) : (setHF2 b s).cvr = s.cvr := rfl
@[simp] theorem setHF2_isr (b : Bool) (s : State) : (setHF2 b s).isr = putBit s.isr Layout.isrHF2 b := rfl
@[simp] theorem setHF2_ivr (b : Bool) (s : State) : (setHF2 b s).ivr = s.ivr := rfl
@[simp] theorem setHF2_txh (b : Bool) (s : State) : (setHF2 b s).txh = s.txh := rfl
@[simp] theorem setHF2_txl (b : Bool) (s : State) : (setHF2 b s).txl = s.txl := rfl
@[simp] theorem setHF2_rxh (b : Bool) (s : State) : (setHF2 b s).rxh = s.rxh := rfl
@[simp] theorem setHF2_rxl (b : Bool) (s : State) : (setHF2 b s).rxl = s.rxl := rfl
@[simp] theorem setHF2_hcr (b : Bool) (s : State) : (setHF2 b s).hcr = putBit s.hcr Layout.hcrHF2 b := rfl
@[simp] theorem setHF2_hsr (b : Bool) (s : State) : (setHF2 b s).hsr = s.hsr := rfl
@[simp] theorem setHF2_htx (b : Bool) (s : State) : (setHF2 b s).htx = s.htx := rfl
@[simp] theorem setHF2_hrx (b : Bool) (s : State) : (setHF2 b s).hrx = s.hrx := rfl
@[simp] theorem setHF2_ipr (b : Bool) (s : State) : (setHF2 b s).ipr = s.ipr := rfl
@[simp] theorem setHF2_p (b : Bool) (s : State) : (setHF2 b s).p = s.p := rfl
@[simp] theorem setHF2_bootMode (b : Bool) (s : State) : (setHF2 b s).bootMode = s.bootMode := rfl
@[simp] theorem setHF2_bootOffset (b : Bool) (s : State) : (setHF2 b s).bootOffset = s.bootOffset := rfl
@[simp] theorem setHF2_pmem (b : Bool) (s : State) : (setHF2 b s).pmem = s.pmem := rfl
@[simp] theorem setHF2_cfg (b : Bool) (s : State) : (setHF2 b s).cfg = s.cfg := rfl
@[simp] theorem setHF2_freeCount (b : Bool) (s : State) : (setHF2 b s).freeCount = s.freeCount := rfl
@[simp] theorem setHF2_queue (b : Bool) (s : State) : (setHF2 b s).queue = s.queue := rfl
@[simp] theorem setHF2_result (b : Bool) (s : State) : (setHF2 b s).result = s.result := rfl
@[simp] theorem setHF2_outs (b : Bool) (s : State) : (setHF2 b s).outs = s.outs := rfl

/-! ## setTREQ -/

@[simp] theorem setTREQ_icr (b : Bool) (s : State) : (setTREQ b s).icr = putBit s.icr Layout.icrTREQ b := rfl
@[simp] theorem setTREQ_cvr (b : Bool) (s : State) : (setTREQ b s).cvr = s.cvr := rfl
@[simp] theorem setTREQ_isr (b : Bool) (s : State) : (setTREQ b s).isr = s.isr := rfl
@[simp] theorem setTREQ_ivr (b : Bool) (s : State) : (setTREQ b s).ivr = s.ivr := rfl
@[simp] theorem setTREQ_txh (b : Bool) (s : State) : (setTREQ b s).txh = s.txh := rfl
@[simp] theorem setTREQ_txl (b : Bool) (s : State) : (setTREQ b s).txl = s.txl := rfl
@[simp] theorem setTREQ_rxh (b : Bool) (s : State) : (setTREQ b s).rxh = s.rxh := rfl
@[simp] theorem setTREQ_rxl (b : Bool) (s : State) : (setTREQ b s).rxl = s.rxl := rfl
@[simp] theorem setTREQ_hcr (b : Bool) (s : State) : (setTREQ b s).hcr = s.hcr := rfl
@[simp] theorem setTREQ_hsr (b : Bool) (s : State) : (setTREQ b s).hsr = s.hsr := rfl
@[simp] theorem setTREQ_htx (b : Bool) (s : State) : (setTREQ b s).htx = s.htx := rfl
@[simp] theorem setTREQ_hrx (b : Bool) (s : State) : (setTREQ b s).hrx = s.hrx := rfl
@[simp] theorem setTREQ_ipr (b : Bool) (s : State) : (setTREQ b s).ipr = s.ipr := rfl
@[simp] theorem setTREQ_p (b : Bool) (s : State) : (setTREQ b s).p = s.p := rfl
@[simp] theorem setTREQ_bootMode (b : Bool) (s : State) : (setTREQ b s).bootMode = s.bootMode := rfl
@[simp] theorem setTREQ_bootOffset (b : Bool) (s : State) : (setTREQ b s).bootOffset = s.bootOffset := rfl
@[simp] theorem setTREQ_pmem (b : Bool) (s : State) : (setTREQ b s).pmem = s.pmem := rfl
@[simp] theorem setTREQ_cfg (b : Bool) (s : State) : (setTREQ b s).cfg = s.cfg := rfl
@[simp] theorem setTREQ_freeCount (b : Bool) (s : State) : (setTREQ b s).freeCount = s.freeCount := rfl
@[simp] theorem setTREQ_queue (b : Bool) (s : State) : (setTREQ b s).queue = s.queue := rfl
@[simp] theorem setTREQ_result (b : Bool) (s : State) : (setTREQ b s).result = s.result := rfl
@[simp] theorem setTREQ_outs (b : Bool) (s : State) : (setTREQ b s).outs = s.outs := rfl

/-! ## setRREQ -/

@[simp] theorem setRREQ_icr (b : Bool) (s : State) : (setRREQ b s).icr = putBit s.icr Layout.icrRREQ b := rfl
@[simp] theorem setRREQ_cvr (b : Bool) (s : State) : (setRREQ b s).cvr = s.cvr := rfl
@[simp] theorem setRREQ_isr (b : Bool) (s : State) : (setRREQ b s).isr = s.isr := rfl
@[simp] theorem setRREQ_ivr (b : Bool) (s : State) : (setRREQ b s).ivr = s.ivr := rfl
@[simp] theorem setRREQ_txh (b : Bool) (s : State) : (setRREQ b s).txh = s.txh := rfl
@[simp] theorem setRREQ_txl (b : Bool) (s : State) : (setRREQ b s).txl = s.txl := rfl
@[simp] theorem setRREQ_rxh (b : Bool) (s : State) : (setRREQ b s).rxh = s.rxh := rfl
@[simp] theorem setRREQ_rxl (b : Bool) (s : State) : (setRREQ b s).rxl = s.rxl := rfl
@[simp] theorem setRREQ_hcr (b : Bool) (s : State) : (setRREQ b s).hcr = s.hcr := rfl
@[simp] theorem setRREQ_hsr (b : Bool) (s : State) : (setRREQ b s).hsr = s.hsr := rfl
@[simp] theorem setRREQ_htx (b : Bool) (s : State) : (setRREQ b s).htx = s.htx := rfl
@[simp] theorem setRREQ_hrx (b : Bool) (s : State) : (setRREQ b s).hrx = s.hrx := rfl
@[simp] theorem setRREQ_ipr (b : Bool) (s : State) : (setRREQ b s).ipr = s.ipr := rfl
@[simp] theorem setRREQ_p (b : Bool) (s : State) : (setRREQ b s).p = s.p := rfl
@[simp] theorem setRREQ_bootMode (b : Bool) (s : State) : (setRREQ b s).bootMode = s.bootMode := rfl
@[simp] theorem setRREQ_bootOffset (b : Bool) (s : State) : (setRREQ b s).bootOffset = s.bootOffset := rfl
@[simp] theorem setRREQ_pmem (b : Bool) (s : State) : (setRREQ b s).pmem = s.pmem := rfl
@[simp] theorem setRREQ_cfg (b : Bool) (s : State) : (setRREQ b s).cfg = s.cfg := rfl
@[simp] theorem setRREQ_freeCount (b : Bool) (s : State) : (setRREQ b s).freeCount = s.freeCount := rfl
@[simp] theorem setRREQ_queue (b : Bool) (s : State) : (setRREQ b s).queue = s.queue := rfl
@[simp] theorem setRREQ_result (b : Bool) (s : State) : (setRREQ b s).result = s.result := rfl
@[simp] theorem setRREQ_outs (b : Bool) (s : State) : (setRREQ b s).outs = s.outs := rfl

/-! ## setHV -/

@[simp] theorem setHV_icr (x : BitVec hvWidth) (s : State) : (setHV x s).icr = s.icr := rfl
@[simp] theorem setHV_cvr (x : BitVec hvWidth) (s : State) : (setHV x s).cvr = putField s.cvr Layout.cvrHVLo x := rfl
@[simp] theorem setHV_isr (x : BitVec hvWidth) (s : State) : (setHV x s).isr = s.isr := rfl
@[simp] theorem setHV_ivr (x : BitVec hvWidth) (s : State) : (setHV x s).ivr = s.ivr := rfl
@[simp] theorem setHV_txh (x : BitVec hvWidth) (s : State) : (setHV x s).txh = s.txh := rfl
@[simp] theorem setHV_txl (x : BitVec hvWidth) (s : State) : (setHV x s).txl = s.txl := rfl
@[simp] theorem setHV_rxh (x : BitVec hvWidth) (s : State) : (setHV x s).rxh = s.rxh := rfl
@[simp] theorem setHV_rxl (x : BitVec hvWidth) (s : State) : (setHV x s).rxl = s.rxl := rfl
@[simp] theorem setHV_hcr (x : BitVec hvWidth) (s : State) : (setHV x s).hcr = s.hcr := rfl
@[simp] theorem setHV_hsr (x : BitVec hvWidth) (s : State) : (setHV x s).hsr = s.hsr := rfl
@[simp] theorem setHV_htx (x : BitVec hvWidth) (s : State) : (setHV x s).htx = s.htx := rfl
@[simp] theorem setHV_hrx (x : BitVec hvWidth) (s : State) : (setHV x s).hrx = s.hrx := rfl
@[simp] theorem setHV_ipr (x : BitVec hvWidth) (s : State) : (setHV x s).ipr = s.ipr := rfl
@[simp] theorem setHV_p (x : BitVec hvWidth) (s : State) : (setHV x s).p = s.p := rfl
@[simp] theorem setHV_bootMode (x : BitVec hvWidth) (s : State) : (setHV x s).bootMode = s.bootMode := rfl
@[simp] theorem setHV_bootOffset (x : BitVec hvWidth) (s : State) : (setHV x s).bootOffset = s.bootOffset := rfl
@[simp] theorem setHV_pmem (x : BitVec hvWidth) (s : State) : (setHV x s).pmem = s.pmem := rfl
@[simp] theorem setHV_cfg (x : BitVec hvWidth) (s : State) : (setHV x s).cfg = s.cfg := rfl
@[simp] theorem setHV_freeCount (x : BitVec hvWidth) (s : State) : (setHV x s).freeCount = s.freeCount := rfl
@[simp] theorem setHV_queue (x : BitVec hvWidth) (s : State) : (setHV x s).queue = s.queue := rfl
@[simp] theorem setHV_result (x : BitVec hvWidth) (s : State) : (setHV x s).result = s.result := rfl
@[simp] theorem setHV_outs (x : BitVec hvWidth) (s : State) : (setHV x s).outs = s.outs := rfl

/-! ## setHCIE -/

@[simp] theorem setHCIE_icr (b : Bool) (s : State) : (setHCIE b s).icr = s.icr := rfl
@[simp] theorem setHCIE_cvr (b : Bool) (s : State) : (setHCIE b s).cvr = s.cvr := rfl
@[simp] theorem setHCIE_isr (b : Bool) (s : State) : (setHCIE b s).isr = s.isr := rfl
@[simp] theorem setHCIE_ivr (b : Bool) (s : State) : (setHCIE b s).ivr = s.ivr := rfl
@[simp] theorem setHCIE_txh (b : Bool) (s : State) : (setHCIE b s).txh = s.txh := rfl
@[simp] theorem setHCIE_txl (b : Bool) (s : State) : (setHCIE b s).txl = s.txl := rfl
@[simp] theorem setHCIE_rxh (b : Bool) (s : State) : (setHCIE b s).rxh = s.rxh := rfl
@[simp] theorem setHCIE_rxl (b : Bool) (s : State) : (setHCIE b s).rxl = s.rxl := rfl
@[simp] theorem setHCIE_hcr (b : Bool) (s : State) : (setHCIE b s).hcr = putBit s.hcr Layout.hcrHCIE b := rfl
@[simp] theorem setHCIE_hsr (b : Bool) (s : State) : (setHCIE b s).hsr = s.hsr := rfl
@[simp] theorem setHCIE_htx (b : Bool) (s : State) : (setHCIE b s).htx = s.htx := rfl
@[simp] theorem setHCIE_hrx (b : Bool) (s : State) : (setHCIE b s).hrx = s.hrx := rfl
@[simp] theorem setHCIE_ipr (b : Bool) (s : State) : (setHCIE b s).ipr = s.ipr := rfl
@[simp] theorem setHCIE_p (b : Bool) (s : State) : (setHCIE b s).p = s.p := rfl
@[simp] theorem setHCIE_bootMode (b : Bool) (s : State) : (setHCIE b s).bootMode = s.bootMode := rfl
@[simp] theorem setHCIE_bootOffset (b : Bool) (s : State) : (setHCIE b s).bootOffset = s.bootOffset := rfl
@[simp] theorem setHCIE_pmem (b : Bool) (s : State) : (setHCIE b s).pmem = s.pmem := rfl
@[simp] theorem setHCIE_cfg (b : Bool) (s : State) : (setHCIE b s).cfg = s.cfg := rfl
@[simp] theorem setHCIE_freeCount (b : Bool) (s : State) : (setHCIE b s).freeCount = s.freeCount := rfl
@[simp] theorem setHCIE_queue (b : Bool) (s : State) : (setHCIE b s).queue = s.queue := rfl
@[simp] theorem setHCIE_result (b : Bool) (s : State) : (setHCIE b s).result = s.result := rfl
@[simp] theorem setHCIE_outs (b : Bool) (s : State) : (setHCIE b s).outs = s.outs := rfl

/-! ## setHTIE -/

@[simp] theorem setHTIE_icr (b : Bool) (s : State) : (setHTIE b s).icr = s.icr := rfl
@[simp] theorem setHTIE_cvr (b : Bool) (s : State) : (setHTIE b s).cvr = s.cvr := rfl
@[simp] theorem setHTIE_isr (b : Bool) (s : State) : (setHTIE b s).isr = s.isr := rfl
@[simp] theorem setHTIE_ivr (b : Bool) (s : State) : (setHTIE b s).ivr = s.ivr := rfl
@[simp] theorem setHTIE_txh (b : Bool) (s : State) : (setHTIE b s).txh = s.txh := rfl
@[simp] theorem setHTIE_txl (b : Bool) (s : State) : (setHTIE b s).txl = s.txl := rfl
@[simp] theorem setHTIE_rxh (b : Bool) (s : State) : (setHTIE b s).rxh = s.rxh := rfl
@[simp] theorem setHTIE_rxl (b : Bool) (s : State) : (setHTIE b s).rxl = s.rxl := rfl
@[simp] theorem setHTIE_hcr (b : Bool) (s : State) : (setHTIE b s).hcr = putBit s.hcr Layout.hcrHTIE b := rfl
@[simp] theorem setHTIE_hsr (b : Bool) (s : State) : (setHTIE b s).hsr = s.hsr := rfl
@[simp] theorem setHTIE_htx (b : Bool) (s : State) : (setHTIE b s).htx = s.htx := rfl
@[simp] theorem setHTIE_hrx (b : Bool) (s : State) : (setHTIE b s).hrx = s.hrx := rfl
@[simp] theorem setHTIE_ipr (b : Bool) (s : State) : (setHTIE b s).ipr = s.ipr := rfl
@[simp] theorem setHTIE_p (b : Bool) (s : State) : (setHTIE b s).p = s.p := rfl
@[simp] theorem setHTIE_bootMode (b : Bool) (s : State) : (setHTIE b s).bootMode = s.bootMode := rfl
@[simp] theorem setHTIE_bootOffset (b : Bool) (s : State) : (setHTIE b s).bootOffset = s.bootOffset := rfl
@[simp] theorem setHTIE_pmem (b : Bool) (s : State) : (setHTIE b s).pmem = s.pmem := rfl
@[simp] theorem setHTIE_cfg (b : Bool) (s : State) : (setHTIE b s).cfg = s.cfg := rfl
@[simp] theorem setHTIE_freeCount (b : Bool) (s : State) : (setHTIE b s).freeCount = s.freeCount := rfl
@[simp] theorem setHTIE_queue (b : Bool) (s : State) : (setHTIE b s).queue = s.queue := rfl
@[simp] theorem setHTIE_result (b : Bool) (s : State) : (setHTIE b s).result = s.result := rfl
@[simp] theorem setHTIE_outs (b : Bool) (s : State) : (setHTIE b s).outs = s.outs := rfl

/-! ## setHRIE -/

@[simp] theorem setHRIE_icr (b : Bool) (s : State) : (setHRIE b s).icr = s.icr := rfl
@[simp] theorem setHRIE_cvr (b : Bool) (s : State) : (setHRIE b s).cvr = s.cvr := rfl
@[simp] theorem setHRIE_isr (b : Bool) (s : State) : (setHRIE b s).isr = s.isr := rfl
@[simp] theorem setHRIE_ivr (b : Bool) (s : State) : (setHRIE b s).ivr = s.ivr := rfl
@[simp] theorem setHRIE_txh (b : Bool) (s : State) : (setHRIE b s).txh = s.txh := rfl
@[simp] theorem setHRIE_txl (b : Bool) (s : State) : (setHRIE b s).txl = s.txl := rfl
@[simp] theorem setHRIE_rxh (b : Bool) (s : State) : (setHRIE b s).rxh = s.rxh := rfl
@[simp] theorem setHRIE_rxl (b : Bool) (s : State) : (setHRIE b s).rxl = s.rxl := rfl
@[simp] theorem setHRIE_hcr (b : Bool) (s : State) : (setHRIE b s).hcr = putBit s.hcr Layout.hcrHRIE b := rfl
@[simp] theorem setHRIE_hsr (b : Bool) (s : State) : (setHRIE b s).hsr = s.hsr := rfl
@[simp] theorem setHRIE_htx (b : Bool) (s : State) : (setHRIE b s).htx = s.htx := rfl
@[simp] theorem setHRIE_hrx (b : Bool) (s : State) : (setHRIE b s).hrx = s.hrx := rfl
@[simp] theorem setHRIE_ipr (b : Bool) (s : State) : (setHRIE b s).ipr = s.ipr := rfl
@[simp] theorem setHRIE_p (b : Bool) (s : State) : (setHRIE b s).p = s.p := rfl
@[simp] theorem setHRIE_bootMode (b : Bool) (s : State) : (setHRIE b s).bootMode = s.bootMode := rfl
@[simp] theorem setHRIE_bootOffset (b : Bool) (s : State) : (setHRIE b s).bootOffset = s.bootOffset := rfl
@[simp] theorem setHRIE_pmem (b : Bool) (s : State) : (setHRIE b s).pmem = s.pmem := rfl
@[simp] theorem setHRIE_cfg (b : Bool) (s : State) : (setHRIE b s).cfg = s.cfg := rfl
@[simp] theorem setHRIE_freeCount (b : Bool) (s : State) : (setHRIE b s).freeCount = s.freeCount := rfl
@[simp] theorem setHRIE_queue (b : Bool) (s : State) : (setHRIE b s).queue = s.queue := rfl
@[simp] theorem setHRIE_result (b : Bool) (s : State) : (setHRIE b s).result = s.result := rfl
@[simp] theorem setHRIE_outs (b : Bool) (s : State) : (setHRIE b s).outs = s.outs := rfl

/-! ## storeTXDE -/

@[simp] theorem storeTXDE_icr (b : Bool) (s : State) : (storeTXDE b s).icr = s.icr := rfl
@[simp] theorem storeTXDE_cvr (b : Bool) (s : State) : (storeTXDE b s).cvr = s.cvr := rfl
@[simp] theorem storeTXDE_isr (b : Bool) (s : State) : (storeTXDE b s).isr = putBit s.isr Layout.isrTXDE b := rfl
@[simp] theorem storeTXDE_ivr (b : Bool) (s : State) : (storeTXDE b s).ivr = s.ivr := rfl
@[simp] theorem storeTXDE_txh (b : Bool) (s : State) : (storeTXDE b s).txh = s.txh := rfl
@[simp] theorem storeTXDE_txl (b : Bool) (s : State) : (storeTXDE b s).txl = s.txl := rfl
@[simp] theorem storeTXDE_rxh (b : Bool) (s : State) : (storeTXDE b s).rxh = s.rxh := rfl
@[simp] theorem storeTXDE_rxl (b : Bool) (s : State) : (storeTXDE b s).rxl = s.rxl := rfl
@[simp] theorem storeTXDE_hcr (b : Bool) (s : State) : (storeTXDE b s).hcr = s.hcr := rfl
@[simp] theorem storeTXDE_hsr (b : Bool) (s : State) : (storeTXDE b s).hsr = s.hsr := rfl
@[simp] theorem storeTXDE_htx (b : Bool) (s : State) : (storeTXDE b s).htx = s.htx := rfl
@[simp] theorem storeTXDE_hrx (b : Bool) (s : State) : (storeTXDE b s).hrx = s.hrx := rfl
@[simp] theorem storeTXDE_ipr (b : Bool) (s : State) : (storeTXDE b s).ipr = s.ipr := rfl
@[simp] theorem storeTXDE_p (b : Bool) (s : State) : (storeTXDE b s).p = s.p := rfl
@[simp] theorem storeTXDE_bootMode (b : Bool) (s : State) : (storeTXDE b s).bootMode = s.bootMode := rfl
@[simp] theorem storeTXDE_bootOffset (b : Bool) (s : State) : (storeTXDE b s).bootOffset = s.bootOffset := rfl
@[simp] theorem storeTXDE_pmem (b : Bool) (s : State) : (storeTXDE b s).pmem = s.pmem := rfl
@[simp] theorem storeTXDE_cfg (b : Bool) (s : State) : (storeTXDE b s).cfg = s.cfg := rfl
@[simp] theorem storeTXDE_freeCount (b : Bool) (s : State) : (storeTXDE b s).freeCount = s.freeCount := rfl
@[simp] theorem storeTXDE_queue (b : Bool) (s : State) : (storeTXDE b s).queue = s.queue := rfl
@[simp] theorem storeTXDE_result (b : Bool) (s : State) : (storeTXDE b s).result = s.result := rfl
@[simp] theorem storeTXDE_outs (b : Bool) (s : State) : (storeTXDE b s).outs = s.outs := rfl

/-! ## storeRXDF -/

@[simp] theorem storeRXDF_icr (b : Bool) (s : State) : (storeRXDF b s).icr = s.icr := rfl
@[simp] theorem storeRXDF_cvr (b : Bool) (s : State) : (storeRXDF b s).cvr = s.cvr := rfl
@[simp] theorem storeRXDF_isr (b : Bool) (s : State) : (storeRXDF b s).isr = putBit s.isr Layout.isrRXDF b := rfl
@[simp] theorem storeRXDF_ivr (b : Bool) (s : State) : (storeRXDF b s).ivr = s.ivr := rfl
@[simp] theorem storeRXDF_txh (b : Bool) (s : State) : (storeRXDF b s).txh = s.txh := rfl
@[simp] theorem storeRXDF_txl (b : Bool) (s : State) : (storeRXDF b s).txl = s.txl := rfl
@[simp] theorem storeRXDF_rxh (b : Bool) (s : State) : (storeRXDF b s).rxh = s.rxh := rfl
@[simp] theorem storeRXDF_rxl (b : Bool) (s : State) : (storeRXDF b s).rxl = s.rxl := rfl
@[simp] theorem storeRXDF_hcr (b : Bool) (s : State) : (storeRXDF b s).hcr = s.hcr := rfl
@[simp] theorem storeRXDF_hsr (b : Bool) (s : State) : (storeRXDF b s).hsr = s.hsr := rfl
@[simp] theorem storeRXDF_htx (b : Bool) (s : State) : (storeRXDF b s).htx = s.htx := rfl
@[simp] theorem storeRXDF_hrx (b : Bool) (s : State) : (storeRXDF b s).hrx = s.hrx := rfl
@[simp] theorem storeRXDF_ipr (b : Bool) (s : State) : (storeRXDF b s).ipr = s.ipr := rfl
@[simp] theorem storeRXDF_p (b : Bool) (s : State) : (storeRXDF b s).p = s.p := rfl
@[simp] theorem storeRXDF_bootMode (b : Bool) (s : State) : (storeRXDF b s).bootMode = s.bootMode := rfl
@[simp] theorem storeRXDF_bootOffset (b : Bool) (s : State) : (storeRXDF b s).bootOffset = s.bootOffset := rfl
@[simp] theorem storeRXDF_pmem (b : Bool) (s : State) : (storeRXDF b s).pmem = s.pmem := rfl
@[simp] theorem storeRXDF_cfg (b : Bool) (s : State) : (storeRXDF b s).cfg = s.cfg := rfl
@[simp] theorem storeRXDF_freeCount (b : Bool) (s : State) : (storeRXDF b s).freeCount = s.freeCount := rfl
@[simp] theorem storeRXDF_queue (b : Bool) (s : State) : (storeRXDF b s).queue = s.queue := rfl
@[simp] theorem storeRXDF_result (b : Bool) (s : State) : (storeRXDF b s).result = s.result := rfl
@[simp] theorem storeRXDF_outs (b : Bool) (s : State) : (storeRXDF b s).outs = s.outs := rfl

/-! ## storeHTDE -/

@[simp] theorem storeHTDE_icr (b : Bool) (s : State) : (storeHTDE b s).icr = s.icr := rfl
@[simp] theorem storeHTDE_cvr (b : Bool) (s : State) : (storeHTDE b s).cvr = s.cvr := rfl
@[simp] theorem storeHTDE_isr (b : Bool) (s : State) : (storeHTDE b s).isr = s.isr := rfl
@[simp] theorem storeHTDE_ivr (b : Bool) (s : State) : (storeHTDE b s).ivr = s.ivr := rfl
@[simp] theorem storeHTDE_txh (b : Bool) (s : State) : (storeHTDE b s).txh = s.txh := rfl
@[simp] theorem storeHTDE_txl (b : Bool) (s : State) : (storeHTDE b s).txl = s.txl := rfl
@[simp] theorem storeHTDE_rxh (b : Bool) (s : State) : (storeHTDE b s).rxh = s.rxh := rfl
@[simp] theorem storeHTDE_rxl (b : Bool) (s : State) : (storeHTDE b s).rxl = s.rxl := rfl
@[simp] theorem storeHTDE_hcr (b : Bool) (s : State) : (storeHTDE b s).hcr = s.hcr := rfl
@[simp] theorem storeHTDE_hsr (b : Bool) (s : State) : (storeHTDE b s).hsr = putBit s.hsr Layout.hsrHTDE b := rfl
@[simp] theorem storeHTDE_htx (b : Bool) (s : State) : (storeHTDE b s).htx = s.htx := rfl
@[simp] theorem storeHTDE_hrx (b : Bool) (s : State) : (storeHTDE b s).hrx = s.hrx := rfl
@[simp] theorem storeHTDE_ipr (b : Bool) (s : State) : (storeHTDE b s).ipr = s.ipr := rfl
@[simp] theorem storeHTDE_p (b : Bool) (s : State) : (storeHTDE b s).p = s.p := rfl
@[simp] theorem storeHTDE_bootMode (b : Bool) (s : State) : (storeHTDE b s).bootMode = s.bootMode := rfl
@[simp] theorem storeHTDE_bootOffset (b : Bool) (s : State) : (storeHTDE b s).bootOffset = s.bootOffset := rfl
@[simp] theorem storeHTDE_pmem (b : Bool) (s : State) : (storeHTDE b s).pmem = s.pmem := rfl
@[simp] theorem storeHTDE_cfg (b : Bool) (s : State) : (storeHTDE b s).cfg = s.cfg := rfl
@[simp] theorem storeHTDE_freeCount (b : Bool) (s : State) : (storeHTDE b s).freeCount = s.freeCount := rfl
@[simp] theorem storeHTDE_queue (b : Bool) (s : State) : (storeHTDE b s).queue = s.queue := rfl
@[simp] theorem storeHTDE_result (b : Bool) (s : State) : (storeHTDE b s).result = s.result := rfl
@[simp] theorem storeHTDE_outs (b : Bool) (s : State) : (storeHTDE b s).outs = s.outs := rfl

/-! ## storeHRDF -/

@[simp] theorem storeHRDF_icr (b : Bool) (s : State) : (storeHRDF b s).icr = s.icr := rfl
@[simp] theorem storeHRDF_cvr (b : Bool) (s : State) : (storeHRDF b s).cvr = s.cvr := rfl
@[simp] theorem storeHRDF_isr (b : Bool) (s : State) : (storeHRDF b s).isr = s.isr := rfl
@[simp] theorem storeHRDF_ivr (b : Bool) (s : State) : (storeHRDF b s).ivr = s.ivr := rfl
@[simp] theorem storeHRDF_txh (b : Bool) (s : State) : (storeHRDF b s).txh = s.txh := rfl
@[simp] theorem storeHRDF_txl (b : Bool) (s : State) : (storeHRDF b s).txl = s.txl := rfl
@[simp] theorem storeHRDF_rxh (b : Bool) (s : State) : (storeHRDF b s).rxh = s.rxh := rfl
@[simp] theorem storeHRDF_rxl (b : Bool) (s : State) : (storeHRDF b s).rxl = s.rxl := rfl
@[simp] theorem storeHRDF_hcr (b : Bool) (s : State) : (storeHRDF b s).hcr = s.hcr := rfl
@[simp] theorem storeHRDF_hsr (b : Bool) (s : State) : (storeHRDF b s).hsr = putBit s.hsr Layout.hsrHRDF b := rfl
@[simp] theorem storeHRDF_htx (b : Bool) (s : State) : (storeHRDF b s).htx = s.htx := rfl
@[simp] theorem storeHRDF_hrx (b : Bool) (s : State) : (storeHRDF b s).hrx = s.hrx := rfl
@[simp] theorem storeHRDF_ipr (b : Bool) (s : State) : (storeHRDF b s).ipr = s.ipr := rfl
@[simp] theorem storeHRDF_p (b : Bool) (s : State) : (storeHRDF b s).p = s.p := rfl
@[simp] theorem storeHRDF_bootMode (b : Bool) (s : State) : (storeHRDF b s).bootMode = s.bootMode := rfl
@[simp] theorem storeHRDF_bootOffset (b : Bool) (s : State) : (storeHRDF b s).bootOffset = s.bootOffset := rfl
@[simp] theorem storeHRDF_pmem (b : Bool) (s : State) : (storeHRDF b s).pmem = s.pmem := rfl
@[simp] theorem storeHRDF_cfg (b : Bool) (s : State) : (storeHRDF b s).cfg = s.cfg := rfl
@[simp] theorem storeHRDF_freeCount (b : Bool) (s : State) : (storeHRDF b s).freeCount = s.freeCount := rfl
@[simp] theorem storeHRDF_queue (b : Bool) (s : State) : (storeHRDF b s).queue = s.queue := rfl
@[simp] theorem storeHRDF_result (b : Bool) (s : State) : (storeHRDF b s).result = s.result := rfl
@[simp] theorem storeHRDF_outs (b : Bool) (s : State) : (storeHRDF b s).outs = s.outs := rfl

/-! ## storeHCP -/

@[simp] theorem storeHCP_icr (b : Bool) (s : State) : (storeHCP b s).icr = s.icr := rfl
@[simp] theorem storeHCP_cvr (b : Bool) (s : State) : (storeHCP b s).cvr = s.cvr := rfl
@[simp] theorem storeHCP_isr (b : Bool) (s : State) : (storeHCP b s).isr = s.isr := rfl
@[simp] theorem storeHCP_ivr (b : Bool) (s : State) : (storeHCP b s).ivr = s.ivr := rfl
@[simp] theorem storeHCP_txh (b : Bool) (s : State) : (storeHCP b s).txh = s.txh := rfl
@[simp] theorem storeHCP_txl (b : Bool) (s : State) : (storeHCP b s).txl = s.txl := rfl
@[simp] theorem storeHCP_rxh (b : Bool) (s : State) : (storeHCP b s).rxh = s.rxh := rfl
@[simp] theorem storeHCP_rxl (b : Bool) (s : State) : (storeHCP b s).rxl = s.rxl := rfl
@[simp] theorem storeHCP_hcr (b : Bool) (s : State) : (storeHCP b s).hcr = s.hcr := rfl
@[simp] theorem storeHCP_hsr (b : Bool) (s : State) : (storeHCP b s).hsr = putBit s.hsr Layout.hsrHCP b := rfl
@[simp] theorem storeHCP_htx (b : Bool) (s : State) : (storeHCP b s).htx = s.htx := rfl
@[simp] theorem storeHCP_hrx (b : Bool) (s : State) : (storeHCP b s).hrx = s.hrx := rfl
@[simp] theorem storeHCP_ipr (b : Bool) (s : State) : (storeHCP b s).ipr = s.ipr := rfl
@[simp] theorem storeHCP_p (b : Bool) (s : State) : (storeHCP b s).p = s.p := rfl
@[simp] theorem storeHCP_bootMode (b : Bool) (s : State) : (storeHCP b s).bootMode = s.bootMode := rfl
@[simp] theorem storeHCP_bootOffset (b : Bool) (s : State) : (storeHCP b s).bootOffset = s.bootOffset := rfl
@[simp] theorem storeHCP_pmem (b : Bool) (s : State) : (storeHCP b s).pmem = s.pmem := rfl
@[simp] theorem storeHCP_cfg (b : Bool) (s : State) : (storeHCP b s).cfg = s.cfg := rfl
@[simp] theorem storeHCP_freeCount (b : Bool) (s : State) : (storeHCP b s).freeCount = s.freeCount := rfl
@[simp] theorem storeHCP_queue (b : Bool) (s : State) : (storeHCP b s).queue = s.queue := rfl
@[simp] theorem storeHCP_result (b : Bool) (s : State) : (storeHCP b s).result = s.result := rfl
@[simp] theorem storeHCP_outs (b : Bool) (s : State) : (storeHCP b s).outs = s.outs := rfl

/-! ## storeHC -/

@[simp] theorem storeHC_icr (b : Bool) (s : State) : (storeHC b s).icr = s.icr := rfl
@[simp] theorem storeHC_cvr (b : Bool) (s : State) : (storeHC b s).cvr = putBit s.cvr Layout.cvrHC b := rfl
@[simp] theorem storeHC_isr (b : Bool) (s : State) : (storeHC b s).isr = s.isr := rfl
@[simp] theorem storeHC_ivr (b : Bool) (s : State) : (storeHC b s).ivr = s.ivr := rfl
@[simp] theorem storeHC_txh (b : Bool) (s : State) : (storeHC b s).txh = s.txh := rfl
@[simp] theorem storeHC_txl (b : Bool) (s : State) : (storeHC b s).txl = s.txl := rfl
@[simp] theorem storeHC_rxh (b : Bool) (s : State) : (storeHC b s).rxh = s.rxh := rfl
@[simp] theorem storeHC_rxl (b : Bool) (s : State) : (storeHC b s).rxl = s.rxl := rfl
@[simp] theorem storeHC_hcr (b : Bool) (s : State) : (storeHC b s).hcr = s.hcr := rfl
@[simp] theorem storeHC_hsr (b : Bool) (s : State) : (storeHC b s).hsr = s.hsr := rfl
@[simp] theorem storeHC_htx (b : Bool) (s : State) : (storeHC b s).htx = s.htx := rfl
@[simp] theorem storeHC_hrx (b : Bool) (s : State) : (storeHC b s).hrx = s.hrx := rfl
@[simp] theorem storeHC_ipr (b : Bool) (s : State) : (storeHC b s).ipr = s.ipr := rfl
@[simp] theorem storeHC_p (b : Bool) (s : State) : (storeHC b s).p = s.p := rfl
@[simp] theorem storeHC_bootMode (b : Bool) (s : State) : (storeHC b s).bootMode = s.bootMode := rfl
@[simp] theorem storeHC_bootOffset (b : Bool) (s : State) : (storeHC b s).bootOffset = s.bootOffset := rfl
@[simp] theorem storeHC_pmem (b : Bool) (s : State) : (storeHC b s).pmem = s.pmem := rfl
@[simp] theorem storeHC_cfg (b : Bool) (s : State) : (storeHC b s).cfg = s.cfg := rfl
@[simp] theorem storeHC_freeCount (b : Bool) (s : State) : (storeHC b s).freeCount = s.freeCount := rfl
@[simp] theorem storeHC_queue (b : Bool) (s : State) : (storeHC b s).queue = s.queue := rfl
@[simp] theorem storeHC_result (b : Bool) (s : State) : (storeHC b s).result = s.result := rfl
@[simp] theorem storeHC_outs (b : Bool) (s : State) : (storeHC b s).outs = s.outs := rfl

/-! ## bootAdvance -/

@[simp] theorem bootAdvance_icr (s : State) : (bootAdvance s).icr = s.icr := rfl
@[simp] theorem bootAdvance_cvr (s : State) : (bootAdvance s).cvr = s.cvr := rfl
@[simp] theorem bootAdvance_isr (s : State) : (bootAdvance s).isr = s.isr := rfl
@[simp] theorem bootAdvance_ivr (s : State) : (bootAdvance s).ivr = s.ivr := rfl
@[simp] theorem bootAdvance_txh (s : State) : (bootAdvance s).txh = s.txh := rfl
@[simp] theorem bootAdvance_txl (s : State) : (bootAdvance s).txl = s.txl := rfl
@[simp] theorem bootAdvance_rxh (s : State) : (bootAdvance s).rxh = s.rxh := rfl
@[simp] theorem bootAdvance_rxl (s : State) : (bootAdvance s).rxl = s.rxl := rfl
@[simp] theorem bootAdvance_hcr (s : State) : (bootAdvance s).hcr = s.hcr := rfl
@[simp] theorem bootAdvance_hsr (s : State) : (bootAdvance s).hsr = s.hsr := rfl
@[simp] theorem bootAdvance_htx (s : State) : (bootAdvance s).htx = s.htx := rfl
@[simp] theorem bootAdvance_hrx (s : State) : (bootAdvance s).hrx = s.hrx := rfl
@[simp] theorem bootAdvance_ipr (s : State) : (bootAdvance s).ipr = s.ipr := rfl
@[simp] theorem bootAdvance_p (s : State) : (bootAdvance s).p = s.p := rfl
@[simp] theorem bootAdvance_bootMode (s : State) : (bootAdvance s).bootMode = if s.bootOffset + 1 = Layout.bootLimit then .off else s.bootMode := rfl
@[simp] theorem bootAdvance_bootOffset (s : State) : (bootAdvance s).bootOffset = s.bootOffset + 1 := rfl
@[simp] theorem bootAdvance_pmem (s : State) : (bootAdvance s).pmem = s.pmem := rfl
@[simp] theorem bootAdvance_cfg (s : State) : (bootAdvance s).cfg = s.cfg := rfl
@[simp] theorem bootAdvance_freeCount (s : State) : (bootAdvance s).freeCount = s.freeCount := rfl
@[simp] theorem bootAdvance_queue (s : State) : (bootAdvance s).queue = s.queue := rfl
@[simp] theorem bootAdvance_result (s : State) : (bootAdvance s).result = s.result := rfl
@[simp] theorem bootAdvance_outs (s : State) : (bootAdvance s).outs = s.outs := rfl

/-! ## The reset table -/

@[simp] theorem ofOpen_resetICR (o : Cfg.Open) : (Cfg.ofOpen o).resetICR = 0x00#8 := rfl
@[simp] theorem ofOpen_resetHCR (o : Cfg.Open) : (Cfg.ofOpen o).resetHCR = 0x0000#16 := rfl
@[simp] theorem ofOpen_resetIvr (o : Cfg.Open) : (Cfg.ofOpen o).resetIvr = o.resetIvr := rfl
@[simp] theorem ofOpen_resetIpr (o : Cfg.Open) : (Cfg.ofOpen o).resetIpr = o.resetIpr := rfl
@[simp] theorem ofOpen_resetP (o : Cfg.Open) : (Cfg.ofOpen o).resetP = o.resetP := rfl
@[simp] theorem ofOpen_bootAtReset (o : Cfg.Open) : (Cfg.ofOpen o).bootAtReset = o.bootAtReset := rfl
@[simp] theorem ofOpen_resetBootOffset (o : Cfg.Open) : (Cfg.ofOpen o).resetBootOffset = 0 := rfl

@[simp] theorem resetCVR_eq (o : Cfg.Open) : resetCVR (Cfg.ofOpen o) = putField 0x00#8 Layout.cvrHVLo o.resetHv := by
  show putField (putBit 0x00#8 7 false) 0 o.resetHv = putField 0x00#8 0 o.resetHv
  rw [show putBit 0x00#8 7 false = 0x00#8 from by decide]
@[simp] theorem resetISR_eq (o : Cfg.Open) : resetISR (Cfg.ofOpen o) = 0x02#8 := by
  show putBit (putBit (putBit (putBit 0x00#8 4 ((0x0000#16).getLsbD 4)) 3 ((0x0000#16).getLsbD 3)) 1 true) 0 false = 0x02#8
  decide
@[simp] theorem resetHSR_eq (o : Cfg.Open) : resetHSR (Cfg.ofOpen o) = 0x0002#16 := by
  show putBit (putBit (putBit (putBit (putBit 0x0000#16 4 ((0x00#8).getLsbD 4)) 3 ((0x00#8).getLsbD 3)) 2 false) 1 true) 0
    false = 0x0002#16
  decide

/-! ## resetRegisters -/

@[simp] theorem resetRegisters_icr (s : State) : (resetRegisters s).icr = 0x00 := rfl
@[simp] theorem resetRegisters_cvr (s : State) : (resetRegisters s).cvr = putField 0x00#8 Layout.cvrHVLo s.cfg.resetHv :=
  resetCVR_eq s.cfg
@[simp] theorem resetRegisters_isr (s : State) : (resetRegisters s).isr = 0x02#8 := resetISR_eq s.cfg
@[simp] theorem resetRegisters_ivr (s : State) : (resetRegisters s).ivr = s.cfg.resetIvr := rfl
@[simp] theorem resetRegisters_txh (s : State) : (resetRegisters s).txh = Config.freeByte s.freeCount := rfl
@[simp] theorem resetRegisters_txl (s : State) : (resetRegisters s).txl = Config.freeByte (s.freeCount + 1) := rfl
@[simp] theorem resetRegisters_rxh (s : State) : (resetRegisters s).rxh = Config.freeByte (s.freeCount + 2) := rfl
@[simp] theorem resetRegisters_rxl (s : State) : (resetRegisters s).rxl = Config.freeByte (s.freeCount + 3) := rfl
@[simp] theorem resetRegisters_hcr (s : State) : (resetRegisters s).hcr = 0x0000 := rfl
@[simp] theorem resetRegisters_hsr (s : State) : (resetRegisters s).hsr = 0x0002#16 := resetHSR_eq s.cfg
@[simp] theorem resetRegisters_htx (s : State) : (resetRegisters s).htx = Config.freeWord (s.freeCount + 4) := rfl
@[simp] theorem resetRegisters_hrx (s : State) : (resetRegisters s).hrx = Config.freeWord (s.freeCount + 5) := rfl
@[simp] theorem resetRegisters_ipr (s : State) : (resetRegisters s).ipr = s.cfg.resetIpr := rfl
@[simp] theorem resetRegisters_p (s : State) : (resetRegisters s).p = s.cfg.resetP := rfl
@[simp] theorem resetRegisters_bootMode (s : State) : (resetRegisters s).bootMode = s.cfg.bootAtReset := rfl
@[simp] theorem resetRegisters_bootOffset (s : State) : (resetRegisters s).bootOffset = 0 := rfl
@[simp] theorem resetRegisters_pmem (s : State) : (resetRegisters s).pmem = s.pmem := rfl
@[simp] theorem resetRegisters_cfg (s : State) : (resetRegisters s).cfg = s.cfg := rfl
@[simp] theorem resetRegisters_freeCount (s : State) : (resetRegisters s).freeCount = s.freeCount + 6 := rfl
@[simp] theorem resetRegisters_queue (s : State) : (resetRegisters s).queue = s.queue := rfl
@[simp] theorem resetRegisters_result (s : State) : (resetRegisters s).result = s.result := rfl
@[simp] theorem resetRegisters_outs (s : State) : (resetRegisters s).outs = s.outs := rfl

/-! ## raiseIf -/

@[simp] theorem raiseIf_icr (x e : Bool) (tag : IrqTag) (s : State) : (raiseIf x e tag s).icr = s.icr := by
  unfold raiseIf; split <;> rfl
@[simp] theorem raiseIf_cvr (x e : Bool) (tag : IrqTag) (s : State) : (raiseIf x e tag s).cvr = s.cvr := by
  unfold raiseIf; split <;> rfl
@[simp] theorem raiseIf_isr (x e : Bool) (tag : IrqTag) (s : State) : (raiseIf x e tag s).isr = s.isr := by
  unfold raiseIf; split <;> rfl
@[simp] theorem raiseIf_ivr (x e : Bool) (tag : IrqTag) (s : State) : (raiseIf x e tag s).ivr = s.ivr := by
  unfold raiseIf; split <;> rfl
@[simp] theorem raiseIf_txh (x e : Bool) (tag : IrqTag) (s : State) : (raiseIf x e tag s).txh = s.txh := by
  unfold raiseIf; split <;> rfl
@[simp] theorem raiseIf_txl (x e : Bool) (tag : IrqTag) (s : State) : (raiseIf x e tag s).txl = s.txl := by
  unfold raiseIf; split <;> rfl
@[simp] theorem raiseIf_rxh (x e : Bool) (tag : IrqTag) (s : State) : (raiseIf x e tag s).rxh = s.rxh := by
  unfold raiseIf; split <;> rfl
@[simp] theorem raiseIf_rxl (x e : Bool) (tag : IrqTag) (s : State) : (raiseIf x e tag s).rxl = s.rxl := by
  unfold raiseIf; split <;> rfl
@[simp] theorem raiseIf_hcr (x e : Bool) (tag : IrqTag) (s : State) : (raiseIf x e tag s).hcr = s.hcr := by
  unfold raiseIf; split <;> rfl
@[simp] theorem raiseIf_hsr (x e : Bool) (tag : IrqTag) (s : State) : (raiseIf x e tag s).hsr = s.hsr := by
  unfold raiseIf; split <;> rfl
@[simp] theorem raiseIf_htx (x e : Bool) (tag : IrqTag) (s : State) : (raiseIf x e tag s).htx = s.htx := by
  unfold raiseIf; split <;> rfl
@[simp] theorem raiseIf_hrx (x e : Bool) (tag : IrqTag) (s : State) : (raiseIf x e tag s).hrx = s.hrx := by
  unfold raiseIf; split <;> rfl
@[simp] theorem raiseIf_ipr (x e : Bool) (tag : IrqTag) (s : State) : (raiseIf x e tag s).ipr = s.ipr := by
  unfold raiseIf; split <;> rfl
@[simp] theorem raiseIf_p (x e : Bool) (tag : IrqTag) (s : State) : (raiseIf x e tag s).p = s.p := by
  unfold raiseIf; split <;> rfl
@[simp] theorem raiseIf_bootMode (x e : Bool) (tag : IrqTag) (s : State) : (raiseIf x e tag s).bootMode = s.bootMode := by
  unfold raiseIf; split <;> rfl
@[simp] theorem raiseIf_bootOffset (x e : Bool) (tag : IrqTag) (s : State) : (raiseIf x e tag s).bootOffset = s.bootOffset := by
  unfold raiseIf; split <;> rfl
@[simp] theorem raiseIf_pmem (x e : Bool) (tag : IrqTag) (s : State) : (raiseIf x e tag s).pmem = s.pmem := by
  unfold raiseIf; split <;> rfl
@[simp] theorem raiseIf_cfg (x e : Bool) (tag : IrqTag) (s : State) : (raiseIf x e tag s).cfg = s.cfg := by
  unfold raiseIf; split <;> rfl
@[simp] theorem raiseIf_freeCount (x e : Bool) (tag : IrqTag) (s : State) : (raiseIf x e tag s).freeCount = s.freeCount := by
  unfold raiseIf; split <;> rfl
@[simp] theorem raiseIf_queue (x e : Bool) (tag : IrqTag) (s : State) : (raiseIf x e tag s).queue = s.queue := by
  unfold raiseIf; split <;> rfl
@[simp] theorem raiseIf_result (x e : Bool) (tag : IrqTag) (s : State) : (raiseIf x e tag s).result = s.result := by
  unfold raiseIf; split <;> rfl
@[simp] theorem raiseIf_outs (x e : Bool) (tag : IrqTag) (s : State) :
    (raiseIf x e tag s).outs = s.outs ++ (if x && e then [.irq tag] else []) := by
  unfold raiseIf; split <;> simp_all

/-! ## diagReserved -/

@[simp] theorem diagReserved_icr {w : Nat} (reg : RegName) (mask v : BitVec w) (s : State) : (diagReserved reg mask v s).icr = s.icr := by
  unfold diagReserved; split <;> rfl
@[simp] theorem diagReserved_cvr {w : Nat} (reg : RegName) (mask v : BitVec w) (s : State) : (diagReserved reg mask v s).cvr = s.cvr := by
  unfold diagReserved; split <;> rfl
@[simp] theorem diagReserved_isr {w : Nat} (reg : RegName) (mask v : BitVec w) (s : State) : (diagReserved reg mask v s).isr = s.isr := by
  unfold diagReserved; split <;> rfl
@[simp] theorem diagReserved_ivr {w : Nat} (reg : RegName) (mask v : BitVec w) (s : State) : (diagReserved reg mask v s).ivr = s.ivr := by
  unfold diagReserved; split <;> rfl
@[simp] theorem diagReserved_txh {w : Nat} (reg : RegName) (mask v : BitVec w) (s : State) : (diagReserved reg mask v s).txh = s.txh := by
  unfold diagReserved; split <;> rfl
@[simp] theorem diagReserved_txl {w : Nat} (reg : RegName) (mask v : BitVec w) (s : State) : (diagReserved reg mask v s).txl = s.txl := by
  unfold diagReserved; split <;> rfl
@[simp] theorem diagReserved_rxh {w : Nat} (reg : RegName) (mask v : BitVec w) (s : State) : (diagReserved reg mask v s).rxh = s.rxh := by
  unfold diagReserved; split <;> rfl
@[simp] theorem diagReserved_rxl {w : Nat} (reg : RegName) (mask v : BitVec w) (s : State) : (diagReserved reg mask v s).rxl = s.rxl := by
  unfold diagReserved; split <;> rfl
@[simp] theorem diagReserved_hcr {w : Nat} (reg : RegName) (mask v : BitVec w) (s : State) : (diagReserved reg mask v s).hcr = s.hcr := by
  unfold diagReserved; split <;> rfl
@[simp] theorem diagReserved_hsr {w : Nat} (reg : RegName) (mask v : BitVec w) (s : State) : (diagReserved reg mask v s).hsr = s.hsr := by
  unfold diagReserved; split <;> rfl
@[simp] theorem diagReserved_htx {w : Nat} (reg : RegName) (mask v : BitVec w) (s : State) : (diagReserved reg mask v s).htx = s.htx := by
  unfold diagReserved; split <;> rfl
@[simp] theorem diagReserved_hrx {w : Nat} (reg : RegName) (mask v : BitVec w) (s : State) : (diagReserved reg mask v s).hrx = s.hrx := by
  unfold diagReserved; split <;> rfl
@[simp] theorem diagReserved_ipr {w : Nat} (reg : RegName) (mask v : BitVec w) (s : State) : (diagReserved reg mask v s).ipr = s.ipr := by
  unfold diagReserved; split <;> rfl
@[simp] theorem diagReserved_p {w : Nat} (reg : RegName) (mask v : BitVec w) (s : State) : (diagReserved reg mask v s).p = s.p := by
  unfold diagReserved; split <;> rfl
@[simp] theorem diagReserved_bootMode {w : Nat} (reg : RegName) (mask v : BitVec w) (s : State) : (diagReserved reg mask v s).bootMode = s.bootMode := by
  unfold diagReserved; split <;> rfl
@[simp] theorem diagReserved_bootOffset {w : Nat} (reg : RegName) (mask v : BitVec w) (s : State) : (diagReserved reg mask v s).bootOffset = s.bootOffset := by
  unfold diagReserved; split <;> rfl
@[simp] theorem diagReserved_pmem {w : Nat} (reg : RegName) (mask v : BitVec w) (s : State) : (diagReserved reg mask v s).pmem = s.pmem := by
  unfold diagReserved; split <;> rfl
@[simp] theorem diagReserved_cfg {w : Nat} (reg : RegName) (mask v : BitVec w) (s : State) : (diagReserved reg mask v s).cfg = s.cfg := by
  unfold diagReserved; split <;> rfl
@[simp] theorem diagReserved_freeCount {w : Nat} (reg : RegName) (mask v : BitVec w) (s : State) : (diagReserved reg mask v s).freeCount = s.freeCount := by
  unfold diagReserved; split <;> rfl
@[simp] theorem diagReserved_queue {w : Nat} (reg : RegName) (mask v : BitVec w) (s : State) : (diagReserved reg mask v s).queue = s.queue := by
  unfold diagReserved; split <;> rfl
@[simp] theorem diagReserved_result {w : Nat} (reg : RegName) (mask v : BitVec w) (s : State) : (diagReserved reg mask v s).result = s.result := by
  unfold diagReserved; split <;> rfl
@[simp] theorem diagReserved_outs {w : Nat} (reg : RegName) (mask v : BitVec w) (s : State) :
    (diagReserved reg mask v s).outs = s.outs ++ (if outside mask v = 0 then [] else [.diag (.reservedBits reg ((outside mask v).setWidth 16))]) := by
  unfold diagReserved; split <;> simp_all

end Sys2Proof.Machine
end

