-- ==== Sys2Proof/Laws/Handshake.lean ====
section
/-! SUPPORT. The flags after each store, and what each coupled setter and transfer does, once each. -/

namespace Sys2Proof.Machine

/-! ## Flags after a bare store -/

@[simp] theorem storeTXDE_txde (b : Bool) (s : State) : (storeTXDE b s).txde = b := by
  simp only [State.txde, storeTXDE_isr, getLsbD_putBit]; rfl
@[simp] theorem storeTXDE_rxdf (b : Bool) (s : State) : (storeTXDE b s).rxdf = s.rxdf := by
  simp only [State.rxdf, storeTXDE_isr, getLsbD_putBit]; rfl
@[simp] theorem storeRXDF_rxdf (b : Bool) (s : State) : (storeRXDF b s).rxdf = b := by
  simp only [State.rxdf, storeRXDF_isr, getLsbD_putBit]; rfl
@[simp] theorem storeRXDF_txde (b : Bool) (s : State) : (storeRXDF b s).txde = s.txde := by
  simp only [State.txde, storeRXDF_isr, getLsbD_putBit]; rfl
@[simp] theorem storeHTDE_htde (b : Bool) (s : State) : (storeHTDE b s).htde = b := by
  simp only [State.htde, storeHTDE_hsr, getLsbD_putBit]; rfl
@[simp] theorem storeHTDE_hrdf (b : Bool) (s : State) : (storeHTDE b s).hrdf = s.hrdf := by
  simp only [State.hrdf, storeHTDE_hsr, getLsbD_putBit]; rfl
@[simp] theorem storeHTDE_hcp (b : Bool) (s : State) : (storeHTDE b s).hcp = s.hcp := by
  simp only [State.hcp, storeHTDE_hsr, getLsbD_putBit]; rfl
@[simp] theorem storeHRDF_hrdf (b : Bool) (s : State) : (storeHRDF b s).hrdf = b := by
  simp only [State.hrdf, storeHRDF_hsr, getLsbD_putBit]; rfl
@[simp] theorem storeHRDF_htde (b : Bool) (s : State) : (storeHRDF b s).htde = s.htde := by
  simp only [State.htde, storeHRDF_hsr, getLsbD_putBit]; rfl
@[simp] theorem storeHRDF_hcp (b : Bool) (s : State) : (storeHRDF b s).hcp = s.hcp := by
  simp only [State.hcp, storeHRDF_hsr, getLsbD_putBit]; rfl
@[simp] theorem storeHCP_hcp (b : Bool) (s : State) : (storeHCP b s).hcp = b := by
  simp only [State.hcp, storeHCP_hsr, getLsbD_putBit]; rfl
@[simp] theorem storeHCP_htde (b : Bool) (s : State) : (storeHCP b s).htde = s.htde := by
  simp only [State.htde, storeHCP_hsr, getLsbD_putBit]; rfl
@[simp] theorem storeHCP_hrdf (b : Bool) (s : State) : (storeHCP b s).hrdf = s.hrdf := by
  simp only [State.hrdf, storeHCP_hsr, getLsbD_putBit]; rfl
@[simp] theorem storeHC_hc (b : Bool) (s : State) : (storeHC b s).hc = b := by
  simp only [State.hc, storeHC_cvr, getLsbD_putBit]; rfl

/-- Raising is one request on the output list when both conditions hold, and nothing else. -/
theorem raiseIf_eq (x e : Bool) (tag : IrqTag) (s : State) :
    raiseIf x e tag s = { s with outs := s.outs ++ (if x && e then [.irq tag] else []) } := by
  unfold raiseIf
  split
  · rfl
  · simp

/-- The reserved-bit diagnostic is one record on the output list when a bit is outside the mask, and nothing else. -/
theorem diagReserved_eq {w : Nat} (reg : RegName) (mask v : BitVec w) (s : State) :
    diagReserved reg mask v s =
      { s with outs := s.outs ++
          (if outside mask v = 0 then [] else [.diag (.reservedBits reg ((outside mask v).setWidth 16))]) } := by
  unfold diagReserved
  split
  · simp
  · rfl

/-! ## What the transfers and the coupled setters do -/

/-- R130 as one update. -/
theorem xferHostToDsp_eq (s : State) :
    xferHostToDsp s = { s with
      hrx := joinBytes s.txh s.txl
      isr := putBit s.isr Layout.isrTXDE true
      hsr := putBit s.hsr Layout.hsrHRDF true
      outs := s.outs ++ (if s.hrie then [.irq .hostReceiveData] else []) } := by
  simp only [xferHostToDsp, raiseHRDF, raiseTXDE, raiseIf_eq, storeHRDF, storeTXDE, Bool.true_and]
  rfl

/-- R131 as one update. -/
theorem xferDspToHost_eq (s : State) :
    xferDspToHost s = { s with
      rxh := highByte s.htx
      rxl := lowByte s.htx
      isr := putBit s.isr Layout.isrRXDF true
      hsr := putBit s.hsr Layout.hsrHTDE true
      outs := s.outs ++ (if s.htie then [.irq .hostTransmitData] else []) } := by
  simp only [xferDspToHost, raiseHTDE, raiseRXDF, raiseIf_eq, storeHTDE, storeRXDF, Bool.true_and]
  rfl

/-- The setters with 1 that the transfers call are the coupled setters called with 1 (R130, R133). -/
theorem xferHostToDsp_eq_setters (s : State) :
    xferHostToDsp s = setHRDF true (setTXDE true { s with hrx := joinBytes s.txh s.txl }) := rfl

/-- The setters with 1 that the transfers call are the coupled setters called with 1 (R131, R133). -/
theorem xferDspToHost_eq_setters (s : State) :
    xferDspToHost s = setHTDE true (setRXDF true { s with rxh := highByte s.htx, rxl := lowByte s.htx }) := rfl

/-- Clearing TXDE while the DSP side is full stores the flag and nothing else. -/
theorem setTXDE_false_full (s : State) (h : s.hrdf = true) : setTXDE false s = storeTXDE false s := by
  simp [setTXDE, h]

/-- Clearing TXDE while the DSP side is empty transfers, and TXDE is 1 again. -/
theorem setTXDE_false_empty (s : State) (h : s.hrdf = false) :
    setTXDE false s = xferHostToDsp (storeTXDE false s) := by
  simp [setTXDE, h]

/-- Clearing HRDF while the host side is empty stores the flag and nothing else. -/
theorem setHRDF_false_empty (s : State) (h : s.txde = true) : setHRDF false s = storeHRDF false s := by
  simp [setHRDF, h]

/-- Clearing HRDF while the host side is full transfers the staged word. -/
theorem setHRDF_false_full (s : State) (h : s.txde = false) :
    setHRDF false s = xferHostToDsp (storeHRDF false s) := by
  simp [setHRDF, h]

/-- Clearing HTDE while the host side is full stores the flag and nothing else. -/
theorem setHTDE_false_full (s : State) (h : s.rxdf = true) : setHTDE false s = storeHTDE false s := by
  simp [setHTDE, h]

/-- Clearing HTDE while the host side is empty transfers, and HTDE is 1 again. -/
theorem setHTDE_false_empty (s : State) (h : s.rxdf = false) :
    setHTDE false s = xferDspToHost (storeHTDE false s) := by
  simp [setHTDE, h]

/-- Clearing RXDF while the DSP side is empty stores the flag and nothing else. -/
theorem setRXDF_false_empty (s : State) (h : s.htde = true) : setRXDF false s = storeRXDF false s := by
  simp [setRXDF, h]

/-- Clearing RXDF while the DSP side is full transfers the staged word. -/
theorem setRXDF_false_full (s : State) (h : s.htde = false) :
    setRXDF false s = xferDspToHost (storeRXDF false s) := by
  simp [setRXDF, h]

/-- R125 as one update. -/
theorem setHCP_eq (b : Bool) (s : State) :
    setHCP b s = { s with
      hsr := putBit s.hsr Layout.hsrHCP b
      outs := s.outs ++ (if b && s.hcie then [.irq .hostCommand] else []) } := by
  simp only [setHCP, raiseIf_eq, storeHCP]

end Sys2Proof.Machine
end

