-- ==== Sys2Proof/Laws/Memory.lean ====
section
/-! SUPPORT. Program memory: a lane reads what was last written to it, a write leaves every other lane alone, and the
canonical form and the window are kept. -/

namespace Sys2Proof.Machine

/-- A lane after a write: the written byte in the written lane, every other lane as before. -/
theorem Memory.read_write (m : Memory) (a b : Nat) (v : Byte) :
    Memory.read (Memory.write m a v) b = if b = a then some v else Memory.read m b := by
  induction m with
  | nil => simp [Memory.write, Memory.read]
  | cons c rest ih =>
    obtain ⟨k, x⟩ := c
    simp only [Memory.write]
    split
    · simp [Memory.read]
    · split
      · next hk => subst hk; simp only [Memory.read]; split <;> rfl
      · next hne =>
        simp only [Memory.read, ih]
        split
        · next hbk => subst hbk; rw [if_neg (Ne.symm hne)]
        · rfl

/-- Reading the lane just written. -/
@[simp] theorem Memory.read_write_same (m : Memory) (a : Nat) (v : Byte) :
    Memory.read (Memory.write m a v) a = some v := by simp [Memory.read_write]

/-- Reading another lane. -/
theorem Memory.read_write_other (m : Memory) (a b : Nat) (v : Byte) (h : b ≠ a) :
    Memory.read (Memory.write m a v) b = Memory.read m b := by simp [Memory.read_write, h]

/-- A write at or above the bound keeps the lanes rising from the bound. -/
theorem Memory.risesFrom_write (m : Memory) (lo a : Nat) (v : Byte) (h : Memory.risesFrom lo m = true)
    (ha : lo ≤ a) : Memory.risesFrom lo (Memory.write m a v) = true := by
  induction m generalizing lo with
  | nil => simp [Memory.write, Memory.risesFrom, ha]
  | cons c rest ih =>
    obtain ⟨k, x⟩ := c
    simp only [Memory.risesFrom, Bool.and_eq_true, decide_eq_true_eq] at h
    simp only [Memory.write]
    split
    · next hlt =>
      simp only [Memory.risesFrom, Bool.and_eq_true, decide_eq_true_eq]
      exact ⟨ha, hlt, h.2⟩
    · split
      · next hk => subst hk; simp only [Memory.risesFrom, Bool.and_eq_true, decide_eq_true_eq]; exact h
      · simp only [Memory.risesFrom, Bool.and_eq_true, decide_eq_true_eq]
        exact ⟨h.1, ih (k + 1) h.2 (by omega)⟩

/-- A write keeps the canonical form. -/
theorem Memory.wf_write (m : Memory) (a : Nat) (v : Byte) (h : Memory.wf m = true) :
    Memory.wf (Memory.write m a v) = true :=
  Memory.risesFrom_write m 0 a v h (Nat.zero_le a)

/-- A write of a lane of the window keeps every listed lane in the window. -/
theorem Memory.inWindow_write (m : Memory) (a : Nat) (v : Byte) (h : Memory.inWindow m = true)
    (ha : a < 2 * Layout.bootLimit) : Memory.inWindow (Memory.write m a v) = true := by
  induction m with
  | nil => simpa [Memory.write, Memory.inWindow] using ha
  | cons c rest ih =>
    obtain ⟨k, x⟩ := c
    simp only [Memory.inWindow, List.all_cons, Bool.and_eq_true, decide_eq_true_eq] at h
    simp only [Memory.write]
    split
    · simp only [Memory.inWindow, List.all_cons, Bool.and_eq_true, decide_eq_true_eq]; exact ⟨ha, h⟩
    · split
      · simp only [Memory.inWindow, List.all_cons, Bool.and_eq_true, decide_eq_true_eq]; exact ⟨ha, h.2⟩
      · simp only [Memory.inWindow, List.all_cons, Bool.and_eq_true, decide_eq_true_eq]
        exact ⟨h.1, ih h.2⟩

/-- The memory after reset is canonical. -/
theorem reset_pmem_wf : Memory.wf State.reset.pmem = true := rfl

end Sys2Proof.Machine
end

