-- ==== Sys2Proof/Laws/RegisterFile.lean ====
section
/-! SUPPORT. What each register-level set and each loader micro-operation does, as one update, in terms of bit stores;
the backing store after a write. -/

namespace Sys2Proof.Machine

/-- A backing-store entry after a write: the written entry, every other as before. -/
@[simp] theorem readP_writeP (i j : Fin dspCount) (v : Word) (s : State) :
    readP j (writeP i v s) = if j = i then v else readP j s := by
  simp only [readP, writeP, Vector.get_eq_getElem]
  rw [Vector.getElem_set]
  by_cases h : j = i
  · subst h; simp
  · have : (i : Nat) ≠ j := fun e => h (Fin.ext e.symm)
    simp [h, this]

/-- The entry of the k-th address of the window is k (44_dsp_dispatcher.md R160). -/
theorem dspIndex_eq (a : Word) (k : Fin dspCount) (h : a.toNat = 0xffc0 + k) : dspIndex a = k := by
  apply Fin.ext
  simp only [dspIndex, Layout.entryOf, dspCount, BitVec.toNat_sub, Layout.dspBase, BitVec.toNat_ofNat]
  have := k.isLt
  simp only [dspCount] at this
  omega

/-- The reserved-bit part of a write's outputs. -/
def reservedOuts {w : Nat} (reg : RegName) (mask v : BitVec w) : List Output :=
  if outside mask v = 0 then [] else [.diag (.reservedBits reg ((outside mask v).setWidth 16))]

/-- R84 as one update. -/
theorem icrSet_eq (v : Byte) (s : State) :
    icrSet v s = { s with
      icr := putBit (putBit (putBit (putBit s.icr 4 (v.getLsbD 4)) 3 (v.getLsbD 3)) 1 (v.getLsbD 1)) 0 (v.getLsbD 0)
      hsr := putBit (putBit s.hsr 4 (v.getLsbD 4)) 3 (v.getLsbD 3)
      outs := s.outs ++ reservedOuts .icr Layout.maskICR v } := by
  simp only [icrSet, diagReserved_eq, setHF1, setHF0, setTREQ, setRREQ]
  rfl

/-- R87 as one update. -/
theorem cvrSet_eq (v : Byte) (s : State) :
    cvrSet v s = { s with
      cvr := putField (putBit s.cvr 7 (v.getLsbD 7)) 0 (v.extractLsb' 0 5)
      hsr := putBit s.hsr 2 (v.getLsbD 7)
      outs := s.outs ++ reservedOuts .cvr Layout.maskCVR v ++
        (if v.getLsbD 7 && s.hcie then [.irq .hostCommand] else []) } := by
  simp only [cvrSet, setHC, setHCP_eq, diagReserved_eq, storeHC, setHV]
  rfl

/-- R92 as one update. -/
theorem hcrSet_eq (v : Word) (s : State) :
    hcrSet v s = { s with
      hcr := putBit (putBit (putBit (putBit (putBit s.hcr 4 (v.getLsbD 4)) 3 (v.getLsbD 3)) 2 (v.getLsbD 2))
        1 (v.getLsbD 1)) 0 (v.getLsbD 0)
      isr := putBit (putBit s.isr 4 (v.getLsbD 4)) 3 (v.getLsbD 3)
      outs := s.outs ++ reservedOuts .hcr Layout.maskHCR v } := by
  simp only [hcrSet, diagReserved_eq, setHF3, setHF2, setHCIE, setHTIE, setHRIE]
  rfl

/-- R103 as one update. -/
theorem pSet_eq (reg : RegName) (i : Fin dspCount) (m v : Word) (s : State) :
    pSet reg i m v s = { s with p := s.p.set i (v &&& m), outs := s.outs ++ reservedOuts reg m v } := by
  simp only [pSet, diagReserved_eq, writeP]
  rfl

/-- One lane write as one update (R147, R148). -/
theorem writeLane_eq (lane : Nat) (d : Byte) (s : State) :
    writeLane lane d s = { s with
      pmem := Memory.write s.pmem lane d
      outs := s.outs ++ [.pmem s.bootOffset (Memory.read (Memory.write s.pmem lane d) (laneHigh s.bootOffset))
        (Memory.read (Memory.write s.pmem lane d) (laneLow s.bootOffset))] } := rfl

/-- R150 as one update. -/
theorem bootAbort_eq (s : State) :
    bootAbort s = { s with
      bootMode := .off
      icr := if s.cfg.abortLatchesHf0 then putBit s.icr 3 true else s.icr
      hsr := if s.cfg.abortLatchesHf0 then putBit s.hsr 3 true else s.hsr
      outs := s.outs ++ [.pcSet 0] } := by
  simp only [bootAbort, emit, setHF0]
  split <;> rfl

/-- Each of the two lanes of the word at an offset below the limit is a lane of the window. -/
theorem lane_lt_window (off : Nat) (h : off < Layout.bootLimit) :
    laneHigh off < 2 * Layout.bootLimit ∧ laneLow off < 2 * Layout.bootLimit := by
  unfold laneHigh laneLow
  omega

end Sys2Proof.Machine
end

