-- ==== Sys2Proof/Laws/Effects.lean ====
section
/-! SUPPORT. What an event can do, said once: `Effect s i t` lists, for each event, the cases in which it completes and
the state it leaves, as one update; `effect_of_exec` says that every completed event is one of them. Claims over all
events are case analyses of it. -/

namespace Sys2Proof.Machine

/-! ## Outputs of a masked write -/

/-- The reserved-bit part of a byte write, in the words of Safety. -/
theorem reservedOuts_byte (reg : RegName) (m v : Byte) :
    reservedOuts reg m v = diagIf reg ((v &&& ~~~m).setWidth 16) := by
  have e : (v &&& ~~~m = 0) ↔ ((v &&& ~~~m).setWidth 16 = 0#16) := by
    constructor
    · intro h
      rw [h]
      rfl
    · intro h
      apply BitVec.eq_of_getLsbD_eq
      intro j hj
      have hb := congrArg (fun x => x.getLsbD j) h
      simp only [BitVec.getLsbD_setWidth] at hb
      simpa [show j < 16 by omega] using hb
  unfold reservedOuts diagIf outside
  by_cases h : v &&& ~~~m = 0
  · simp [h]
  · rw [if_neg h]
    exact (if_neg (mt e.2 h)).symm

/-- The reserved-bit part of a word write, in the words of Safety. -/
theorem reservedOuts_word (reg : RegName) (m v : Word) : reservedOuts reg m v = diagIf reg (v &&& ~~~m) := by
  simp [reservedOuts, diagIf, outside]

/-! ## The four bootstrap-dependent writes -/

/-- HW.TXL outside the bootstrap. -/
theorem exec_hwTxl_off (b : Byte) (s : State) (h : s.bootMode = .off) :
    exec (.hwTxl b) s = .next (writeTxl b s) := by
  show (if s.bootMode = .active then _ else _) = _
  rw [if_neg (by rw [h]; simp)]

/-- HW.TXL during the bootstrap. -/
theorem exec_hwTxl_active (b : Byte) (s : State) (h : s.bootMode = .active)
    (ho : s.bootOffset < Layout.bootLimit) :
    exec (.hwTxl b) s = .next (bootAdvance (writeLane (laneLow s.bootOffset) b s)) := by
  show (if s.bootMode = .active then (if _ then _ else _) else _) = _
  rw [if_pos h, if_pos ho]

/-- HW.TXH outside the bootstrap. -/
theorem exec_hwTxh_off (b : Byte) (s : State) (h : s.bootMode = .off) :
    exec (.hwTxh b) s = .next (writeTxh b s) := by
  show (if s.bootMode = .active then _ else _) = _
  rw [if_neg (by rw [h]; simp)]

/-- HW.TXH during the bootstrap. -/
theorem exec_hwTxh_active (b : Byte) (s : State) (h : s.bootMode = .active)
    (ho : s.bootOffset < Layout.bootLimit) :
    exec (.hwTxh b) s = .next (writeLane (laneHigh s.bootOffset) b s) := by
  show (if s.bootMode = .active then (if _ then _ else _) else _) = _
  rw [if_pos h, if_pos ho]

/-! ## The effects -/

/-- The event i completes from s in t. -/
inductive Effect (s : State) : Instr → State → Prop
  /-- A read that only returns a value: every read but the two below with their flag set. -/
  | readOnly (i : Instr) (r : ReadResult) (hw : isWriteEvent i = false) (hr : i ≠ .reset)
      (h7 : i = .hrRxl → s.rxdf = false) (h5 : i = .drHtrx → s.hrdf = false) :
      Effect s i { s with result := some r }
  /-- A discarded write. -/
  | discarded (i : Instr) (d : Diag) (hw : isWriteEvent i = true)
      (hi : (∃ b, i = .hwIsr b) ∨ (∃ b, i = .hwUnused4 b) ∨ (∃ b, i = .hwRsvd5 b) ∨ (∃ o b, i = .hwInvalid o b) ∨
        (∃ w, i = .dwHsr w) ∨
        (∃ a w, i = .dwP a w ∧ s.cfg.dspMap.get (dspIndex a) = .discard ∧ isPlainAddr a = true)) :
      Effect s i { s with outs := s.outs ++ [.diag d] }
  /-- HR.RXL with nothing staged. -/
  | consumeRx (hr : s.rxdf = true) (hh : s.htde = true) :
      Effect s .hrRxl { s with
        result := some (.byte s.rxl)
        isr := putBit s.isr Layout.isrRXDF false }
  /-- HR.RXL with a word staged: the DSP-to-host transfer. -/
  | consumeRxTransfer (hr : s.rxdf = true) (hh : s.htde = false) :
      Effect s .hrRxl { s with
        result := some (.byte s.rxl)
        isr := putBit (putBit s.isr Layout.isrRXDF false) Layout.isrRXDF true
        rxh := highByte s.htx
        rxl := lowByte s.htx
        hsr := putBit s.hsr Layout.hsrHTDE true
        outs := s.outs ++ requestIf s.htie .hostTransmitData }
  /-- DR.HTRX with nothing staged. -/
  | consumeHrx (hr : s.hrdf = true) (ht : s.txde = true) :
      Effect s .drHtrx { s with
        result := some (.word s.hrx)
        hsr := putBit s.hsr Layout.hsrHRDF false }
  /-- DR.HTRX with a word staged: the host-to-DSP transfer. -/
  | consumeHrxTransfer (hr : s.hrdf = true) (ht : s.txde = false) :
      Effect s .drHtrx { s with
        result := some (.word s.hrx)
        hsr := putBit (putBit s.hsr Layout.hsrHRDF false) Layout.hsrHRDF true
        hrx := joinBytes s.txh s.txl
        isr := putBit s.isr Layout.isrTXDE true
        outs := s.outs ++ requestIf s.hrie .hostReceiveData }
  /-- HW.TXH dropped. -/
  | txhDropped (b : Byte) (hm : s.bootMode = .off) (ht : s.txde = false) : Effect s (.hwTxh b) s
  /-- HW.TXH stored. -/
  | txhStored (b : Byte) (hm : s.bootMode = .off) (ht : s.txde = true) :
      Effect s (.hwTxh b) { s with txh := b }
  /-- HW.TXL dropped. -/
  | txlDropped (b : Byte) (hm : s.bootMode = .off) (ht : s.txde = false) : Effect s (.hwTxl b) s
  /-- HW.TXL staged behind a full DSP side. -/
  | txlStaged (b : Byte) (hm : s.bootMode = .off) (ht : s.txde = true) (hr : s.hrdf = true) :
      Effect s (.hwTxl b) { s with
        txl := b
        isr := putBit s.isr Layout.isrTXDE false }
  /-- HW.TXL transferred at once. -/
  | txlTransfer (b : Byte) (hm : s.bootMode = .off) (ht : s.txde = true) (hr : s.hrdf = false) :
      Effect s (.hwTxl b) { s with
        txl := b
        isr := putBit (putBit s.isr Layout.isrTXDE false) Layout.isrTXDE true
        hrx := joinBytes s.txh b
        hsr := putBit s.hsr Layout.hsrHRDF true
        outs := s.outs ++ requestIf s.hrie .hostReceiveData }
  /-- HW.TXH during the bootstrap. -/
  | bootHigh (b : Byte) (hm : s.bootMode = .active) (ho : s.bootOffset < Layout.bootLimit) (x y : Option Byte) :
      Effect s (.hwTxh b) { s with
        pmem := Memory.write s.pmem (laneHigh s.bootOffset) b
        outs := s.outs ++ [.pmem s.bootOffset x y] }
  /-- HW.TXL during the bootstrap. -/
  | bootLow (b : Byte) (hm : s.bootMode = .active) (ho : s.bootOffset < Layout.bootLimit) (x y : Option Byte) :
      Effect s (.hwTxl b) { s with
        pmem := Memory.write s.pmem (laneLow s.bootOffset) b
        outs := s.outs ++ [.pmem s.bootOffset x y]
        bootOffset := s.bootOffset + 1
        bootMode := if s.bootOffset + 1 = Layout.bootLimit then .off else s.bootMode }
  /-- DW.HTRX staged behind a full host side. -/
  | htxStaged (w : Word) (hr : s.rxdf = true) :
      Effect s (.dwHtrx w) { s with
        htx := w
        hsr := putBit s.hsr Layout.hsrHTDE false }
  /-- DW.HTRX transferred at once. -/
  | htxTransfer (w : Word) (hr : s.rxdf = false) :
      Effect s (.dwHtrx w) { s with
        htx := w
        hsr := putBit (putBit s.hsr Layout.hsrHTDE false) Layout.hsrHTDE true
        rxh := highByte w
        rxl := lowByte w
        isr := putBit s.isr Layout.isrRXDF true
        outs := s.outs ++ requestIf s.htie .hostTransmitData }
  /-- HW.ICR that aborts the bootstrap, ABORT_LATCHES_HF0 false. -/
  | abort (b : Byte) (hm : s.bootMode = .active) (hb : b.getLsbD 3 = true) (hl : s.cfg.abortLatchesHf0 = false) :
      Effect s (.hwIcr b) { s with
        bootMode := .off
        outs := s.outs ++ [.pcSet 0] }
  /-- HW.ICR that aborts the bootstrap, ABORT_LATCHES_HF0 true. -/
  | abortLatching (b : Byte) (hm : s.bootMode = .active) (hb : b.getLsbD 3 = true)
      (hl : s.cfg.abortLatchesHf0 = true) :
      Effect s (.hwIcr b) { s with
        bootMode := .off
        icr := putBit s.icr 3 true
        hsr := putBit s.hsr 3 true
        outs := s.outs ++ [.pcSet 0] }
  /-- HW.ICR otherwise. -/
  | icr (v : Byte) (h : ¬(s.bootMode = .active ∧ v.getLsbD 3 = true)) :
      Effect s (.hwIcr v) { s with
        icr := putBit (putBit (putBit (putBit s.icr 4 (v.getLsbD 4)) 3 (v.getLsbD 3)) 1 (v.getLsbD 1)) 0 (v.getLsbD 0)
        hsr := putBit (putBit s.hsr 4 (v.getLsbD 4)) 3 (v.getLsbD 3)
        outs := s.outs ++ reservedOuts .icr Layout.maskICR v }
  /-- HW.CVR. -/
  | cvr (v : Byte) :
      Effect s (.hwCvr v) { s with
        cvr := putField (putBit s.cvr 7 (v.getLsbD 7)) 0 (v.extractLsb' 0 5)
        hsr := putBit s.hsr 2 (v.getLsbD 7)
        outs := s.outs ++ reservedOuts .cvr Layout.maskCVR v ++ requestIf (v.getLsbD 7 && s.hcie) .hostCommand }
  /-- DW.HCR. -/
  | hcr (v : Word) :
      Effect s (.dwHcr v) { s with
        hcr := putBit (putBit (putBit (putBit (putBit s.hcr 4 (v.getLsbD 4)) 3 (v.getLsbD 3)) 2 (v.getLsbD 2)) 1
          (v.getLsbD 1)) 0 (v.getLsbD 0)
        isr := putBit (putBit s.isr 4 (v.getLsbD 4)) 3 (v.getLsbD 3)
        outs := s.outs ++ reservedOuts .hcr Layout.maskHCR v }
  /-- HW.IVR. -/
  | ivr (v : Byte) : Effect s (.hwIvr v) { s with ivr := v }
  /-- DW.IPR. -/
  | ipr (v : Word) : Effect s (.dwIpr v) { s with ipr := v }
  /-- DW.PBC. -/
  | pbc (v : Word) :
      Effect s (.dwPbc v) { s with
        p := s.p.set Layout.idxPBC (v &&& Layout.maskPBC)
        outs := s.outs ++ reservedOuts .pbc Layout.maskPBC v }
  /-- DW.BCR. -/
  | bcr (v : Word) :
      Effect s (.dwBcr v) { s with
        p := s.p.set Layout.idxBCR (v &&& s.cfg.maskBcr)
        outs := s.outs ++ reservedOuts .bcr s.cfg.maskBcr v }
  /-- DW.PCD. -/
  | pcd (v : Word) :
      Effect s (.dwPcd v) { s with
        p := s.p.set Layout.idxPCD (v &&& s.cfg.maskPcd)
        outs := s.outs ++ reservedOuts .pcd s.cfg.maskPcd v ++ [.portC (v &&& s.cfg.maskPcd)] }
  /-- DW.P at an address of class Plain. -/
  | plain (a v m : Word) (hm : s.cfg.dspMap.get (dspIndex a) = .plain m) (ha : isPlainAddr a = true) :
      Effect s (.dwP a v) { s with
        p := s.p.set (dspIndex a) (v &&& m)
        outs := s.outs ++ reservedOuts (.p (dspIndex a)) m v }
  /-- RESET. -/
  | reset : Effect s .reset (resetRegisters s)

/-! ## Every completed event is one of the effects -/

/-- A host read is no write event. -/
theorem evWrite_encodeHostRead (o : Byte) : evWrite (encodeHostRead o) = false := evWrite_eventWord ..
/-- A host write is a write event. -/
theorem evWrite_encodeHostWrite (o b : Byte) : evWrite (encodeHostWrite o b) = true := evWrite_eventWord ..
/-- A DSP read is no write event. -/
theorem evWrite_encodeDspRead (a : Word) : evWrite (encodeDspRead a) = false := evWrite_eventWord ..
/-- A DSP write is a write event. -/
theorem evWrite_encodeDspWrite (a w : Word) : evWrite (encodeDspWrite a w) = true := evWrite_eventWord ..
/-- A host event's agent. -/
theorem evAgent_encodeHostRead (o : Byte) : evAgent (encodeHostRead o) = Layout.agentHost := evAgent_eventWord ..
/-- A host event's agent. -/
theorem evAgent_encodeHostWrite (o b : Byte) : evAgent (encodeHostWrite o b) = Layout.agentHost :=
  evAgent_eventWord ..
/-- A DSP event's agent. -/
theorem evAgent_encodeDspRead (a : Word) : evAgent (encodeDspRead a) = Layout.agentDsp := evAgent_eventWord ..
/-- A DSP event's agent. -/
theorem evAgent_encodeDspWrite (a w : Word) : evAgent (encodeDspWrite a w) = Layout.agentDsp := evAgent_eventWord ..

/-- If exec answers next t, t is one of the effects above. -/
theorem effect_of_exec (i : Instr) (s t : State) (h : exec i s = .next t) : Effect s i t := by
  cases i
  case reset => cases h; exact .reset
  case hwTxh b =>
    cases hm : s.bootMode
    · by_cases ho : s.bootOffset < Layout.bootLimit
      · rw [exec_hwTxh_active _ _ hm ho] at h
        cases h
        exact .bootHigh _ hm ho _ _
      · simp only [exec, execHwTxh, hm, bootWriteHigh, ho, if_true, if_false, reduceCtorEq] at h
    · rw [exec_hwTxh_off _ _ hm] at h
      cases h
      unfold writeTxh
      split
      · next ht => exact .txhStored _ hm ht
      · next ht => exact .txhDropped _ hm (by simpa using ht)
  case hwTxl b =>
    cases hm : s.bootMode
    · by_cases ho : s.bootOffset < Layout.bootLimit
      · rw [exec_hwTxl_active _ _ hm ho] at h
        cases h
        exact .bootLow _ hm ho _ _
      · simp only [exec, execHwTxl, hm, bootWriteLow, ho, if_true, if_false, reduceCtorEq] at h
    · rw [exec_hwTxl_off _ _ hm] at h
      cases h
      unfold writeTxl
      split
      · next ht =>
        cases hr : s.hrdf
        · rw [setTXDE_false_empty _ (show ({ s with txl := b } : State).hrdf = false from hr), xferHostToDsp_eq]
          exact .txlTransfer _ hm ht hr
        · rw [setTXDE_false_full _ (show ({ s with txl := b } : State).hrdf = true from hr)]
          exact .txlStaged _ hm ht hr
      · next ht => exact .txlDropped _ hm (by simpa using ht)
  case hrRxl =>
    simp only [exec, execHrRxl] at h
    split at h
    · next hr =>
      cases hh : s.htde
      · rw [setRXDF_false_full _ hh, xferDspToHost_eq] at h
        cases h
        exact .consumeRxTransfer hr hh
      · rw [setRXDF_false_empty _ hh] at h
        cases h
        exact .consumeRx hr hh
    · next hr =>
      cases h
      exact .readOnly _ _ rfl (by simp) (fun _ => by simpa using hr) (by simp)
  case drHtrx =>
    simp only [exec, execDrHtrx] at h
    split at h
    · next hr =>
      cases ht : s.txde
      · rw [setHRDF_false_full _ ht, xferHostToDsp_eq] at h
        cases h
        exact .consumeHrxTransfer hr ht
      · rw [setHRDF_false_empty _ ht] at h
        cases h
        exact .consumeHrx hr ht
    · next hr =>
      cases h
      exact .readOnly _ _ rfl (by simp) (by simp) (fun _ => by simpa using hr)
  case dwHtrx w =>
    simp only [exec, execDwHtrx] at h
    cases hr : s.rxdf
    · rw [setHTDE_false_empty _ (show ({ s with htx := w } : State).rxdf = false from hr), xferDspToHost_eq] at h
      cases h
      exact .htxTransfer _ hr
    · rw [setHTDE_false_full _ (show ({ s with htx := w } : State).rxdf = true from hr)] at h
      cases h
      exact .htxStaged _ hr
  case hwIcr b =>
    simp only [exec, execHwIcr] at h
    split at h
    · next hb =>
      rw [bootAbort_eq] at h
      cases h
      cases hl : s.cfg.abortLatchesHf0
      · exact .abort _ hb.1 hb.2 hl
      · exact .abortLatching _ hb.1 hb.2 hl
    · next hb =>
      rw [icrSet_eq] at h
      cases h
      exact .icr _ hb
  case hwCvr b =>
    simp only [exec, execHwCvr, cvrSet_eq] at h
    cases h
    exact .cvr _
  case dwHcr b =>
    simp only [exec, execDwHcr, hcrSet_eq] at h
    cases h
    exact .hcr _
  case hwIvr b =>
    simp only [exec, execHwIvr, ivrSet, Layout.maskIVR, show (0xff#8 : Byte) = BitVec.allOnes 8 from rfl,
      BitVec.and_allOnes] at h
    cases h
    exact .ivr _
  case dwIpr b =>
    simp only [exec, execDwIpr, iprSet, Layout.maskIPR, show (0xffff#16 : Word) = BitVec.allOnes 16 from rfl,
      BitVec.and_allOnes] at h
    cases h
    exact .ipr _
  case dwPbc b =>
    simp only [exec, execDwPbc, pbcSet, pSet_eq] at h
    cases h
    exact .pbc _
  case dwBcr b =>
    simp only [exec, execDwBcr, bcrSet, pSet_eq] at h
    cases h
    exact .bcr _
  case dwPcd b =>
    simp only [exec, execDwPcd, pcdSet, pSet_eq] at h
    cases h
    exact .pcd _
  case dwP a b =>
    simp only [exec, execDwP] at h
    split at h
    · next ha =>
      cases h
      unfold writePlain
      split
      · next m hm =>
        rw [pSet_eq]
        exact .plain _ _ _ hm ha
      · next hd =>
        exact .discarded _ _ (evWrite_encodeDspWrite _ _)
          (.inr (.inr (.inr (.inr (.inr ⟨_, _, rfl, hd, ha⟩)))))
    · cases h
  case hrInvalid o =>
    simp only [exec, execHrInvalid] at h
    split at h
    · cases h
      exact .readOnly _ _ (evWrite_encodeHostRead _) (by simp) (by simp) (by simp)
    · cases h
  case drP a =>
    simp only [exec, execDrP] at h
    split at h
    · cases h
      exact .readOnly _ _ (evWrite_encodeDspRead _) (by simp) (by simp) (by simp)
    · cases h
  case hwInvalid o b =>
    simp only [exec, execHwInvalid] at h
    split at h
    · cases h
      exact .discarded _ _ (evWrite_encodeHostWrite _ _) (.inr (.inr (.inr (.inl ⟨_, _, rfl⟩))))
    · cases h
  case hwIsr b => cases h; exact .discarded _ _ (evWrite_encodeHostWrite _ _) (.inl ⟨_, rfl⟩)
  case hwUnused4 b => cases h; exact .discarded _ _ (evWrite_encodeHostWrite _ _) (.inr (.inl ⟨_, rfl⟩))
  case hwRsvd5 b => cases h; exact .discarded _ _ (evWrite_encodeHostWrite _ _) (.inr (.inr (.inl ⟨_, rfl⟩)))
  case dwHsr w =>
    cases h
    exact .discarded _ _ (evWrite_encodeDspWrite _ _) (.inr (.inr (.inr (.inr (.inl ⟨_, rfl⟩)))))
  case hrIcr => cases h; exact .readOnly _ _ (evWrite_encodeHostRead _) (by simp) (by simp) (by simp)
  case hrCvr => cases h; exact .readOnly _ _ (evWrite_encodeHostRead _) (by simp) (by simp) (by simp)
  case hrIsr => cases h; exact .readOnly _ _ (evWrite_encodeHostRead _) (by simp) (by simp) (by simp)
  case hrIvr => cases h; exact .readOnly _ _ (evWrite_encodeHostRead _) (by simp) (by simp) (by simp)
  case hrUnused4 => cases h; exact .readOnly _ _ (evWrite_encodeHostRead _) (by simp) (by simp) (by simp)
  case hrRsvd5 => cases h; exact .readOnly _ _ (evWrite_encodeHostRead _) (by simp) (by simp) (by simp)
  case hrRxh => cases h; exact .readOnly _ _ (evWrite_encodeHostRead _) (by simp) (by simp) (by simp)
  case drPbc => cases h; exact .readOnly _ _ (evWrite_encodeDspRead _) (by simp) (by simp) (by simp)
  case drHcr => cases h; exact .readOnly _ _ (evWrite_encodeDspRead _) (by simp) (by simp) (by simp)
  case drBcr => cases h; exact .readOnly _ _ (evWrite_encodeDspRead _) (by simp) (by simp) (by simp)
  case drIpr => cases h; exact .readOnly _ _ (evWrite_encodeDspRead _) (by simp) (by simp) (by simp)
  case drPcd => cases h; exact .readOnly _ _ (evWrite_encodeDspRead _) (by simp) (by simp) (by simp)
  case drHsr => cases h; exact .readOnly _ _ (evWrite_encodeDspRead _) (by simp) (by simp) (by simp)

end Sys2Proof.Machine
end

