-- ==== Sys2Proof/Laws/PerInstr.lean ====
section
/-! SUPPORT. The family EncodeIsEvent: a well-formed instruction encodes to a word that satisfies the five clauses of
30_encoding.md R61. One lemma for each constructor. -/

namespace Sys2Proof.Laws.EncodeIsEvent

/-- A well-formed instruction's word is an event. -/
def Statement (i : Instr) : Prop := i.wellFormed = true → isEvent (encode i) = true

theorem hrIcr : Statement .hrIcr := fun _ => isEvent_encodeHostRead _
theorem hrCvr : Statement .hrCvr := fun _ => isEvent_encodeHostRead _
theorem hrIsr : Statement .hrIsr := fun _ => isEvent_encodeHostRead _
theorem hrIvr : Statement .hrIvr := fun _ => isEvent_encodeHostRead _
theorem hrUnused4 : Statement .hrUnused4 := fun _ => isEvent_encodeHostRead _
theorem hrRsvd5 : Statement .hrRsvd5 := fun _ => isEvent_encodeHostRead _
theorem hrRxh : Statement .hrRxh := fun _ => isEvent_encodeHostRead _
theorem hrRxl : Statement .hrRxl := fun _ => isEvent_encodeHostRead _
theorem hrInvalid (offset : Byte) : Statement (.hrInvalid offset) := fun _ => isEvent_encodeHostRead _
theorem hwIcr (data : Byte) : Statement (.hwIcr data) := fun _ => isEvent_encodeHostWrite _ _
theorem hwCvr (data : Byte) : Statement (.hwCvr data) := fun _ => isEvent_encodeHostWrite _ _
theorem hwIsr (data : Byte) : Statement (.hwIsr data) := fun _ => isEvent_encodeHostWrite _ _
theorem hwIvr (data : Byte) : Statement (.hwIvr data) := fun _ => isEvent_encodeHostWrite _ _
theorem hwUnused4 (data : Byte) : Statement (.hwUnused4 data) := fun _ => isEvent_encodeHostWrite _ _
theorem hwRsvd5 (data : Byte) : Statement (.hwRsvd5 data) := fun _ => isEvent_encodeHostWrite _ _
theorem hwTxh (data : Byte) : Statement (.hwTxh data) := fun _ => isEvent_encodeHostWrite _ _
theorem hwTxl (data : Byte) : Statement (.hwTxl data) := fun _ => isEvent_encodeHostWrite _ _
theorem hwInvalid (offset data : Byte) : Statement (.hwInvalid offset data) := fun _ => isEvent_encodeHostWrite _ _
theorem drPbc : Statement .drPbc := fun _ => isEvent_encodeDspRead _ rfl
theorem drHcr : Statement .drHcr := fun _ => isEvent_encodeDspRead _ rfl
theorem drBcr : Statement .drBcr := fun _ => isEvent_encodeDspRead _ rfl
theorem drIpr : Statement .drIpr := fun _ => isEvent_encodeDspRead _ rfl
theorem drPcd : Statement .drPcd := fun _ => isEvent_encodeDspRead _ rfl
theorem drHsr : Statement .drHsr := fun _ => isEvent_encodeDspRead _ rfl
theorem drHtrx : Statement .drHtrx := fun _ => isEvent_encodeDspRead _ rfl
theorem drP (addr : Word) : Statement (.drP addr) := fun h => isEvent_encodeDspRead addr (inWindow_of_isPlainAddr addr h)
theorem dwPbc (data : Word) : Statement (.dwPbc data) := fun _ => isEvent_encodeDspWrite _ _ rfl
theorem dwHcr (data : Word) : Statement (.dwHcr data) := fun _ => isEvent_encodeDspWrite _ _ rfl
theorem dwBcr (data : Word) : Statement (.dwBcr data) := fun _ => isEvent_encodeDspWrite _ _ rfl
theorem dwIpr (data : Word) : Statement (.dwIpr data) := fun _ => isEvent_encodeDspWrite _ _ rfl
theorem dwPcd (data : Word) : Statement (.dwPcd data) := fun _ => isEvent_encodeDspWrite _ _ rfl
theorem dwHsr (data : Word) : Statement (.dwHsr data) := fun _ => isEvent_encodeDspWrite _ _ rfl
theorem dwHtrx (data : Word) : Statement (.dwHtrx data) := fun _ => isEvent_encodeDspWrite _ _ rfl
theorem dwP (addr data : Word) : Statement (.dwP addr data) := fun h => isEvent_encodeDspWrite addr data (inWindow_of_isPlainAddr addr h)
theorem reset : Statement .reset := fun _ => rfl

end Sys2Proof.Laws.EncodeIsEvent
end

