-- ==== Sys2Proof/Tests/Slice0.lean ====
section
/-! SUPPORT. The model's own tests. Expected values come from 95_test_vectors.md (S1 to S9 and section 2) and, for the
decode tests, from words written out by 30_encoding.md R60; then, for each statement with hypotheses, a state and
operands that meet them. -/

namespace Sys2Proof.Machine.Tests

/-! ## States (the conventions of 95_test_vectors.md) -/

/-- The configuration of the vectors: MASK_BCR = MASK_PCD = 0xffff, DSP_MAP = Plain(0xffff), RESET_* = 0. -/
def cfg0 : Cfg.Open where
  bootAtReset := .off
  abortLatchesHf0 := false
  hostRd5 := 0x5c
  maskBcr := 0xffff
  maskPcd := 0xffff
  dspMap := Vector.replicate 64 (.plain 0xffff)
  edgeBit := true
  resetHv := 0
  resetIvr := 0x00
  resetIpr := 0x0000
  resetP := Vector.replicate 64 0x0000

/-- The state after RESET with that configuration. -/
def s0 : State where
  icr := 0x00
  cvr := 0x00
  isr := 0x02
  ivr := 0x00
  txh := 0x00
  txl := 0x00
  rxh := 0x00
  rxl := 0x00
  hcr := 0x0000
  hsr := 0x0002
  htx := 0x0000
  hrx := 0x0000
  ipr := 0x0000
  p := Vector.replicate 64 0x0000
  bootMode := .off
  bootOffset := 0
  pmem := []
  cfg := cfg0
  freeCount := 0
  queue := []
  result := none
  outs := []

/-- Host-to-DSP path both full: (TXDE, HRDF) = (0, 1). -/
def sHostFull : State := { s0 with isr := 0x00, hsr := 0x0003, txh := 0x33, txl := 0x44, hrx := 0x1122 }
/-- Host-to-DSP path with a word to read: (TXDE, HRDF) = (1, 1). -/
def sHostOne : State := { s0 with hsr := 0x0003, hrx := 0x1234, txh := 0x11, txl := 0x22 }
/-- DSP-to-host path with a word to read: (HTDE, RXDF) = (1, 1). -/
def sDspOne : State := { s0 with isr := 0x03, rxh := 0xca, rxl := 0xfe }
/-- DSP-to-host path both full: (HTDE, RXDF) = (0, 1). -/
def sDspFull : State := { s0 with isr := 0x03, hsr := 0x0000, rxh := 0xca, rxl := 0xfe, htx := 0xf00d, hcr := 0x0002 }
/-- The bootstrap active at an offset. -/
def sBoot (off : Nat) : State := { s0 with bootMode := .active, bootOffset := off }
/-- A configuration whose DSP_MAP is Discard everywhere. -/
def sDiscard : State := { s0 with cfg := { cfg0 with dspMap := Vector.replicate 64 .discard } }

/-- What a completed event leaves, seen through f. -/
def look {α : Type} (i : Instr) (s : State) (f : State → α) : Option α :=
  match exec i s with
  | .next t => some (f t)
  | .fault _ | .refused _ => none

/-! ## WellFormed and decode -/

/-- Each check of WellFormed refuses an ill-formed term (R73, R74), at the edges of its range. -/
theorem test_wellFormed_refuses :
    (Instr.hrInvalid 0x07).wellFormed = false ∧ (Instr.hwInvalid 0x07 0).wellFormed = false ∧
    (Instr.drP 0xffbf).wellFormed = false ∧ (Instr.dwP 0xffbf 0).wellFormed = false ∧
    (Instr.drP 0xffc4).wellFormed = false ∧ (Instr.dwP 0xffe5 0).wellFormed = false := by decide

theorem test_decode_hostReads :
    decode 0x000000000#35 = .ok .hrIcr ∧ decode 0x000010000#35 = .ok .hrCvr ∧
    decode 0x000020000#35 = .ok .hrIsr ∧ decode 0x000030000#35 = .ok .hrIvr ∧
    decode 0x000040000#35 = .ok .hrUnused4 ∧ decode 0x000050000#35 = .ok .hrRsvd5 ∧
    decode 0x000060000#35 = .ok .hrRxh ∧ decode 0x000070000#35 = .ok .hrRxl ∧
    decode 0x000080000#35 = .ok (.hrInvalid 0x08) ∧ decode 0x000FF0000#35 = .ok (.hrInvalid 0xff) := by decide

theorem test_decode_hostWrites :
    decode 0x1000000FF#35 = .ok (.hwIcr 0xff) ∧ decode 0x100010085#35 = .ok (.hwCvr 0x85) ∧
    decode 0x1000200FF#35 = .ok (.hwIsr 0xff) ∧ decode 0x10003005A#35 = .ok (.hwIvr 0x5a) ∧
    decode 0x100040001#35 = .ok (.hwUnused4 0x01) ∧ decode 0x100050001#35 = .ok (.hwRsvd5 0x01) ∧
    decode 0x100060012#35 = .ok (.hwTxh 0x12) ∧ decode 0x100070034#35 = .ok (.hwTxl 0x34) ∧
    decode 0x100080001#35 = .ok (.hwInvalid 0x08 0x01) := by decide

theorem test_decode_dspReads :
    decode 0x2FFC00000#35 = .ok .drPbc ∧ decode 0x2FFC40000#35 = .ok .drHcr ∧
    decode 0x2FFDE0000#35 = .ok .drBcr ∧ decode 0x2FFDF0000#35 = .ok .drIpr ∧
    decode 0x2FFE30000#35 = .ok .drPcd ∧ decode 0x2FFE40000#35 = .ok .drHsr ∧
    decode 0x2FFE50000#35 = .ok .drHtrx ∧ decode 0x2FFFF0000#35 = .ok (.drP 0xffff) := by decide

theorem test_decode_dspWrites :
    decode 0x3FFC00003#35 = .ok (.dwPbc 0x0003) ∧ decode 0x3FFC4001F#35 = .ok (.dwHcr 0x001f) ∧
    decode 0x3FFDEFFFF#35 = .ok (.dwBcr 0xffff) ∧ decode 0x3FFDFFFFF#35 = .ok (.dwIpr 0xffff) ∧
    decode 0x3FFE30005#35 = .ok (.dwPcd 0x0005) ∧ decode 0x3FFE4FFFF#35 = .ok (.dwHsr 0xffff) ∧
    decode 0x3FFE5CAFE#35 = .ok (.dwHtrx 0xcafe) ∧ decode 0x3FFD0A5A5#35 = .ok (.dwP 0xffd0 0xa5a5) := by decide

theorem test_decode_reset : decode 0x400000000#35 = .ok .reset := by decide

/-- One word against each clause of R61. -/
theorem test_decode_refuses :
    decode 0x600000000#35 = .error .agentReserved ∧ decode 0x400000001#35 = .error .systemOperand ∧
    decode 0x500000000#35 = .error .systemOperand ∧ decode 0x101000000#35 = .error .hostHighBits ∧
    decode 0x100000100#35 = .error .hostHighBits ∧ decode 0x2FFBF0000#35 = .error .dspOutsideWindow ∧
    decode 0x2FFC00001#35 = .error .readData ∧ decode 0x000000001#35 = .error .readData := by decide

/-- The table has the 155 rows of R79. -/
theorem test_opcodeRows_length : opcodeRows.length = 155 := by
  simp [opcodeRows, hostRows, hostNames, hostInvalidRows, dspReadRows, dspWriteRows, dspAddrs, dspCount,
    show hostInvalidBits = [3, 4, 5, 6, 7] from by decide]

/-- Rows of spec/opcode_table.json, patterns and masks as the table has them. -/
theorem test_opcodeRows_masks :
    hostInvalidRows.map (fun r => (r.pattern, r.mask)) =
      [(0x000080000#35, 0x7FFF8FFFF#35), (0x100080000#35, 0x7FFF8FF00#35),
       (0x000100000#35, 0x7FFF0FFFF#35), (0x100100000#35, 0x7FFF0FF00#35),
       (0x000200000#35, 0x7FFE0FFFF#35), (0x100200000#35, 0x7FFE0FF00#35),
       (0x000400000#35, 0x7FFC0FFFF#35), (0x100400000#35, 0x7FFC0FF00#35),
       (0x000800000#35, 0x7FF80FFFF#35), (0x100800000#35, 0x7FF80FF00#35)] ∧
    fullMask = 0x7FFFFFFFF#35 ∧ hostWriteMask = 0x7FFFFFF00#35 ∧ dspWriteMask = 0x7FFFF0000#35 ∧
    encode .reset = 0x400000000#35 := by decide

/-! ## The configuration (00_scope.md R7, 30_encoding.md R63 to R68, 10_state.md R34) -/

/-- Each decided mask is the union of the register's fields. -/
theorem test_masks_are_the_fields :
    fieldMask 8 Layout.icrHF1 1 ||| fieldMask 8 Layout.icrHF0 1 ||| fieldMask 8 Layout.icrTREQ 1 |||
      fieldMask 8 Layout.icrRREQ 1 = Layout.maskICR ∧
    fieldMask 8 Layout.cvrHC 1 ||| fieldMask 8 Layout.cvrHVLo Layout.cvrHVWidth = Layout.maskCVR ∧
    fieldMask 8 Layout.isrHF3 1 ||| fieldMask 8 Layout.isrHF2 1 ||| fieldMask 8 Layout.isrTXDE 1 |||
      fieldMask 8 Layout.isrRXDF 1 = Layout.maskISR ∧
    fieldMask 16 Layout.hcrHF3 1 ||| fieldMask 16 Layout.hcrHF2 1 ||| fieldMask 16 Layout.hcrHCIE 1 |||
      fieldMask 16 Layout.hcrHTIE 1 ||| fieldMask 16 Layout.hcrHRIE 1 = Layout.maskHCR ∧
    fieldMask 16 Layout.hsrHF1 1 ||| fieldMask 16 Layout.hsrHF0 1 ||| fieldMask 16 Layout.hsrHCP 1 |||
      fieldMask 16 Layout.hsrHTDE 1 ||| fieldMask 16 Layout.hsrHRDF 1 = Layout.maskHSR := by decide

/-- The entries of the named addresses (10_state.md R23). -/
theorem test_entries :
    [Layout.idxPBC, Layout.idxHCR, Layout.idxBCR, Layout.idxIPR, Layout.idxPCD, Layout.idxHSR, Layout.idxHTRX] =
      [0x00, 0x04, 0x1e, 0x1f, 0x23, 0x24, 0x25] := by decide

theorem test_reset_registers :
    State.reset.icr = 0x00#8 ∧ State.reset.cvr = 0x00#8 ∧ State.reset.isr = 0x02#8 ∧ State.reset.hcr = 0x0000#16 ∧
    State.reset.hsr = 0x0002#16 ∧ State.reset.bootOffset = 0 := by decide

/-! ## One event on a small state: host reads (vectors S2, S8, S9, 2.6) -/

theorem test_hrIcr : look .hrIcr { s0 with icr := 0x1b } State.result = some (some (.byte 0x1b)) := by decide
theorem test_hrCvr : look .hrCvr { s0 with cvr := 0x9f } State.result = some (some (.byte 0x9f)) := by decide
theorem test_hrIsr : look .hrIsr s0 State.result = some (some (.byte 0x02)) := by decide
theorem test_hrIvr : look .hrIvr { s0 with ivr := 0xa5 } State.result = some (some (.byte 0xa5)) := by decide
theorem test_hrUnused4 : look .hrUnused4 s0 State.result = some (some (.byte 0x00)) := by decide
theorem test_hrRsvd5 : look .hrRsvd5 s0 State.result = some (some (.byte 0x5c)) := by decide
theorem test_hrRxh_empty : look .hrRxh s0 State.result = some (some (.byte 0xbf)) := by decide
theorem test_hrRxh_full :
    look .hrRxh sDspOne (fun t => (t.result, t.isr)) = some (some (.byte 0xca), 0x03#8) := by decide
theorem test_hrRxl_last :
    look .hrRxl sDspOne (fun t => (t.result, t.isr)) = some (some (.byte 0xfe), 0x02#8) := by decide
theorem test_hrRxl_transfer :
    look .hrRxl sDspFull (fun t => ((t.result, t.rxh, t.rxl), t.isr, t.hsr, t.outs)) =
      some ((some (.byte 0xfe), 0xf0#8, 0x0d#8), 0x03#8, 0x0002#16, [.irq .hostTransmitData]) := by decide
theorem test_hrInvalid : look (.hrInvalid 0x08) s0 State.result = some (some (.byte 0xff)) := by decide

/-! ## Host writes (vectors S2 to S7, 2.1, 2.4, 2.6) -/

theorem test_hwIcr :
    look (.hwIcr 0xff) s0 (fun t => (t.icr, t.hsr, t.outs)) =
      some (0x1b#8, 0x001a#16, [.diag (.reservedBits .icr 0x00e4)]) := by decide
theorem test_hwIcr_abort :
    look (.hwIcr 0x1b) { sBoot 2 with icr := 0x10 } (fun t => (t.bootMode, t.bootOffset, t.icr, t.outs)) =
      some (.off, 2, 0x10#8, [.pcSet 0]) := by decide
theorem test_hwCvr :
    look (.hwCvr 0xe5) { s0 with hcr := 0x0004 } (fun t => (t.cvr, t.hsr, t.outs)) =
      some (0x85#8, 0x0006#16, [.diag (.reservedBits .cvr 0x0060), .irq .hostCommand]) := by decide
theorem test_hwCvr_clears :
    look (.hwCvr 0x05) { s0 with hcr := 0x0004, cvr := 0x85, hsr := 0x0006 } (fun t => (t.cvr, t.hsr, t.outs)) =
      some (0x05#8, 0x0002#16, []) := by decide
theorem test_hwIsr :
    look (.hwIsr 0xff) s0 (fun t => (t.isr, t.outs)) = some (0x02#8, [.diag (.readOnly .isr)]) := by decide
theorem test_hwIvr : look (.hwIvr 0x5a) s0 State.ivr = some 0x5a#8 := by decide
theorem test_hwUnused4 : look (.hwUnused4 0x01) s0 State.outs = some [.diag (.unusedOffset 0x04)] := by decide
theorem test_hwRsvd5 : look (.hwRsvd5 0x01) s0 State.outs = some [.diag (.reservedOffset 0x05)] := by decide
theorem test_hwTxh :
    look (.hwTxh 0x33) sHostOne (fun t => (t.txh, t.txl, t.isr, t.hsr)) =
      some (0x33#8, 0x22#8, 0x02#8, 0x0003#16) := by decide
theorem test_hwTxh_boot :
    look (.hwTxh 0x12) (sBoot 0) (fun t => (t.pmem, t.bootOffset, t.outs)) =
      some ([(0, 0x12#8)], 0, [.pmem 0 (some 0x12) none]) := by decide
theorem test_hwTxl :
    look (.hwTxl 0x34) { s0 with txh := 0x12, hcr := 0x0001 } (fun t => (t.txl, t.hrx, t.isr, t.hsr, t.outs)) =
      some (0x34#8, 0x1234#16, 0x02#8, 0x0003#16, [.irq .hostReceiveData]) := by decide
theorem test_hwTxl_boot :
    look (.hwTxl 0xff) (sBoot 0x7ff) (fun t => (t.pmem, t.bootOffset, t.bootMode)) =
      some ([(0xfff, 0xff#8)], 0x800, .off) := by decide
theorem test_hwInvalid :
    look (.hwInvalid 0xff 0x01) s0 State.outs = some [.diag (.invalidOffset 0xff)] := by decide

/-! ## DSP reads (vectors S8, 2.5) -/

theorem test_drPbc : look .drPbc { s0 with p := s0.p.set 0x00 1 } State.result = some (some (.word 1)) := by decide
theorem test_drHcr : look .drHcr { s0 with hcr := 0x001f } State.result = some (some (.word 0x001f)) := by decide
theorem test_drBcr :
    look .drBcr { s0 with p := s0.p.set 0x1e 0xc3ff } State.result = some (some (.word 0xc3ff)) := by decide
theorem test_drIpr : look .drIpr { s0 with ipr := 0xbeef } State.result = some (some (.word 0xbeef)) := by decide
theorem test_drPcd :
    look .drPcd { s0 with p := s0.p.set 0x23 0x0005 } State.result = some (some (.word 0x0005)) := by decide
theorem test_drHsr : look .drHsr s0 State.result = some (some (.word 0x0002)) := by decide
theorem test_drHtrx_last :
    look .drHtrx sHostOne (fun t => (t.result, t.hsr)) = some (some (.word 0x1234), 0x0002#16) := by decide
theorem test_drHtrx_transfer :
    look .drHtrx sHostFull (fun t => (t.result, t.hrx, t.isr, t.hsr, t.outs)) =
      some (some (.word 0x1122), 0x3344#16, 0x02#8, 0x0003#16, []) := by decide
theorem test_drP :
    look (.drP 0xffd0) { s0 with p := s0.p.set 0x10 0xa5a5 } State.result = some (some (.word 0xa5a5)) := by decide

/-! ## DSP writes (vectors 2.1, 2.5) -/

theorem test_dwPbc :
    look (.dwPbc 0x0003) s0 (fun t => (t.p.get 0x00, t.outs)) =
      some (0x0001#16, [.diag (.reservedBits .pbc 0x0002)]) := by decide
theorem test_dwHcr :
    look (.dwHcr 0xffff) s0 (fun t => (t.hcr, t.isr, t.outs)) =
      some (0x001f#16, 0x1a#8, [.diag (.reservedBits .hcr 0xffe0)]) := by decide
theorem test_dwBcr :
    look (.dwBcr 0xffff) { s0 with cfg := { cfg0 with maskBcr := 0xc3ff } } (fun t => (t.p.get 0x1e, t.outs)) =
      some (0xc3ff#16, [.diag (.reservedBits .bcr 0x3c00)]) := by decide
theorem test_dwIpr : look (.dwIpr 0xffff) s0 State.ipr = some 0xffff#16 := by decide
theorem test_dwPcd :
    look (.dwPcd 0x1234) { s0 with cfg := { cfg0 with maskPcd := 0x00ff } } (fun t => (t.p.get 0x23, t.outs)) =
      some (0x0034#16, [.diag (.reservedBits .pcd 0x1200), .portC 0x0034]) := by decide
theorem test_dwHsr :
    look (.dwHsr 0xffff) s0 (fun t => (t.hsr, t.outs)) = some (0x0002#16, [.diag (.readOnly .hsr)]) := by decide
theorem test_dwHtrx :
    look (.dwHtrx 0xcafe) { s0 with hcr := 0x0002 } (fun t => ((t.htx, t.rxh, t.rxl), t.isr, t.hsr, t.outs)) =
      some ((0xcafe#16, 0xca#8, 0xfe#8), 0x03#8, 0x0002#16, [.irq .hostTransmitData]) := by decide
theorem test_dwHtrx_overwrites :
    look (.dwHtrx 0x0001) sDspFull (fun t => (t.htx, t.rxh, t.isr, t.hsr)) =
      some (0x0001#16, 0xca#8, 0x03#8, 0x0000#16) := by decide
theorem test_dwP :
    look (.dwP 0xffd0 0xa5a5) { s0 with cfg := { cfg0 with dspMap := Vector.replicate 64 (.plain 0x00ff) } }
      (fun t => (t.p.get 0x10, t.outs)) = some (0x00a5#16, [.diag (.reservedBits (.p 0x10) 0xa500)]) := by decide
theorem test_dwP_discard :
    look (.dwP 0xffd0 0xa5a5) sDiscard (fun t => (t.p.get 0x10, t.outs)) =
      some (0x0000#16, [.diag (.reservedAddress 0xffd0)]) := by decide

/-! ## RESET (vectors 2.7) and the step -/

theorem test_reset :
    look .reset { s0 with icr := 0x1b, cvr := 0x85, hcr := 0x001f, ipr := 0x0300, bootOffset := 0x123 }
      (fun t => ((t.icr, t.cvr, t.isr), (t.hcr, t.hsr, t.ipr), t.bootOffset, t.outs)) =
      some ((0x00#8, 0x00#8, 0x02#8), (0x0000#16, 0x0002#16, 0x0000#16), 0, []) := by decide

/-- The word a probe places is the one the next step runs, from the reset state itself. -/
theorem test_step_from_reset :
    (match step (State.reset.withFetchWord 40 0x100010085) with
      | .next t => some (t.cvr, t.hsr, t.queue)
      | .fault _ | .refused _ => none) = some (0x85#8, 0x0006#16, []) := by decide

/-! ## Priority vectors (95_test_vectors.md 2.2) -/

theorem test_projections_5555 :
    projections 0x5555#16 =
      ⟨.level0, true, .level1, false, .level0, .level0, .level0, .level0, .level0⟩ := by decide
theorem test_projections_aaaa :
    projections 0xaaaa#16 =
      ⟨.level1, false, .level0, true, .level1, .level1, .level1, .level1, .level1⟩ := by decide

/-! ## Witnesses: a state and operands that meet the hypotheses of each statement, at the edges of its clauses -/

/-- A state that satisfies the invariant. -/
theorem witness_inv : s0.Inv where
  mirror := by unfold MirrorInv; decide
  handshake := by unfold HandshakeInv; decide
  reserved := by
    refine ⟨by decide, by decide, by decide, by decide, by decide, by decide, by decide, ?_⟩
    intro i
    show (Vector.replicate 64 (0x0000 : Word)).get i &&& _ = 0
    simp [Vector.get_eq_getElem]
  boot := by unfold BootInv; decide
  command := by unfold CommandInv; decide
  discard := by
    intro a _ h
    simp [s0, cfg0, Vector.get_eq_getElem] at h
  pmem := by unfold PmemInv; decide
  cfg := by
    intro i
    show (Vector.replicate 64 (0x0000 : Word)).get i &&& _ = 0
    simp [Vector.get_eq_getElem]

/-- Class Discard: the invariant clause holds and some unnamed address has that class. -/
theorem witness_discard :
    DiscardInv sDiscard ∧ isPlainAddr 0xffc1 = true ∧ sDiscard.cfg.dspMap.get (dspIndex 0xffc1) = .discard :=
  ⟨fun a _ _ => by simp [sDiscard, s0, cfg0, readP, Vector.get_eq_getElem], by decide, by decide⟩

theorem witness_DecodeOfEncodeIsTheEvent :
    (Instr.hwInvalid 0x08 0xff).wellFormed = true ∧ (Instr.drP 0xffc1).wellFormed = true ∧
    (Instr.dwP 0xffff 0xa5a5).wellFormed = true := by decide
theorem witness_EncodeOfDecodedIsTheWord : decode 0x100FF0001#35 = .ok (.hwInvalid 0xff 0x01) := by decide
theorem witness_EventSelectsExactlyItsRow :
    decode 0x100070034#35 = .ok (.hwTxl 0x34) ∧ decode 0x100070056#35 = .ok (.hwTxl 0x56) ∧
    (0x100070034#35).extractLsb' 16 19 = (0x100070056#35).extractLsb' 16 19 := by decide
theorem witness_StepRunsTheArrivingEvent :
    ({ s0 with queue := [0x2FFE50000#35] } : State).queue = 0x2FFE50000#35 :: [] ∧
    decode 0x2FFE50000#35 = .ok .drHtrx := by decide
theorem witness_StepRefusesNonEventsAndIdles :
    ({ s0 with queue := [0x600000000#35] } : State).queue = 0x600000000#35 :: [] ∧
    decode 0x600000000#35 = .error .agentReserved ∧ s0.queue = [] := by decide
theorem witness_IllFormedTermsAreRefused :
    (Instr.drP 0xffe4).wellFormed = false ∧ (Instr.hrInvalid 0x07).wellFormed = false := by decide
theorem witness_BootWriteOutsideTheWindowFaults :
    (sBoot 0x800).bootMode = .active ∧ 0x800 ≤ (sBoot 0x800).bootOffset := by decide
theorem witness_StepKeepsTheInvariant :
    ({ s0 with queue := [0x400000000#35] } : State).Inv ∧
    ∃ t, step { s0 with queue := [0x400000000#35] } = .next t :=
  ⟨⟨witness_inv.mirror, witness_inv.handshake, witness_inv.reserved, witness_inv.boot, witness_inv.command,
    witness_inv.discard, witness_inv.pmem, witness_inv.cfg⟩, _, rfl⟩
theorem witness_EveryEventKeepsMirrorsAndCommand :
    (MirrorInv s0 ∧ CommandInv s0 ∧ ∃ t, exec (.hwCvr 0x85) s0 = .next t) ∧ ∃ t, exec .reset sHostFull = .next t :=
  ⟨⟨witness_inv.mirror, witness_inv.command, _, rfl⟩, _, rfl⟩
theorem witness_EveryEventLeavesStablePaths :
    (HandshakeInv s0 ∧ ∃ t, exec (.hwTxl 0x34) s0 = .next t) ∧ ∃ t, exec .reset sHostFull = .next t :=
  ⟨⟨witness_inv.handshake, _, rfl⟩, _, rfl⟩
theorem witness_NoEventFaultsOrIsRefused :
    (Instr.dwP 0xffff 0xa5a5).wellFormed = true ∧ s0.Inv ∧
    ({ s0 with queue := [0x3FFFFA5A5#35] } : State).Inv ∧ isEvent 0x3FFFFA5A5#35 = true :=
  ⟨by decide, witness_inv,
   ⟨witness_inv.mirror, witness_inv.handshake, witness_inv.reserved, witness_inv.boot, witness_inv.command,
    witness_inv.discard, witness_inv.pmem, witness_inv.cfg⟩, by decide⟩
/-- The offset reaches 0x800, and the mode is OFF already. -/
theorem witness_BootstrapOnlyAdvances :
    Instr.hwTxl 0xff ≠ .reset ∧ BootInv (sBoot 0x7ff) ∧ BootInv s0 ∧ s0.bootMode = .off ∧
    look (.hwTxl 0xff) (sBoot 0x7ff) State.bootOffset = some 0x800 ∧ (∃ t, exec .hrIcr s0 = .next t) :=
  ⟨by decide, by unfold BootInv; decide, witness_inv.boot, by decide, by decide, _, rfl⟩
/-- One event for each of the eight changes the six clauses speak of. -/
theorem witness_FlagsAreSetTogetherAndClearedAlone :
    (sHostFull.txde = false ∧ look .drHtrx sHostFull State.txde = some true) ∧
    (s0.hrdf = false ∧ look (.hwTxl 0x34) s0 State.hrdf = some true) ∧
    (sDspFull.htde = false ∧ look .hrRxl sDspFull State.htde = some true) ∧
    (s0.rxdf = false ∧ look (.dwHtrx 0xcafe) s0 State.rxdf = some true) ∧
    (sHostOne.txde = true ∧ look (.hwTxl 0x34) sHostOne State.txde = some false) ∧
    (sHostOne.hrdf = true ∧ look .drHtrx sHostOne State.hrdf = some false) ∧
    (sDspOne.htde = true ∧ look (.dwHtrx 0xf00d) sDspOne State.htde = some false) ∧
    (sDspOne.rxdf = true ∧ look .hrRxl sDspOne State.rxdf = some false) := by decide
theorem witness_ResetEstablishesTheInvariantsAndRepeats : CfgOk s0.cfg := witness_inv.cfg
theorem witness_HostRegisterReads :
    ReservedInv s0 ∧ 0x08 ≤ (0x08 : Byte).toNat ∧ 0x08 ≤ (0xff : Byte).toNat :=
  ⟨witness_inv.reserved, by decide, by decide⟩
theorem witness_DspRegisterReads :
    ReservedInv s0 ∧ DiscardInv sDiscard ∧ sDiscard.cfg.dspMap.get 0x01 = .discard ∧
    (0xffc1 : Word).toNat = 0xffc0 + ((0x01 : Fin 64) : Nat) ∧ isPlainAddr 0xffc1 = true ∧
    (0xffff : Word).toNat = 0xffc0 + ((0x3f : Fin 64) : Nat) ∧ isPlainAddr 0xffff = true :=
  ⟨witness_inv.reserved, witness_discard.1, by decide, by decide, by decide, by decide, by decide⟩
theorem witness_HostWriteOfIcr :
    outside Layout.maskICR s0.icr = 0 ∧ ¬(s0.bootMode = .active ∧ (0x1b#8).getLsbD 3 = true) ∧
    ¬((sBoot 2).bootMode = .active ∧ (0x10#8).getLsbD 3 = true) := by decide
theorem witness_HostWriteOfCvr : outside Layout.maskCVR s0.cvr = 0 := by decide
theorem witness_DspWriteOfHcr : outside Layout.maskHCR s0.hcr = 0 := by decide
theorem witness_DspWriteOfPlainAddress :
    (0xffc1 : Word).toNat = 0xffc0 + ((0x01 : Fin 64) : Nat) ∧ isPlainAddr 0xffc1 = true ∧
    s0.cfg.dspMap.get 0x01 = .plain 0xffff ∧ sDiscard.cfg.dspMap.get 0x01 = .discard := by decide
theorem witness_DiscardedWrites : 0x08 ≤ (0x08 : Byte).toNat ∧ 0x08 ≤ (0xff : Byte).toNat := by decide
theorem witness_ReadBackAfterWrite :
    s0.Inv ∧ s0.bootMode = .off ∧ isPlainAddr 0xffff = true ∧
    s0.cfg.dspMap.get (dspIndex 0xffff) = .plain 0xffff :=
  ⟨witness_inv, by decide, by decide, by decide⟩
/-- One state for each of the three stable states of the path, the bootstrap off. -/
theorem witness_HostToDspPathTable :
    (s0.txde = true ∧ s0.hrdf = false ∧ s0.bootMode = .off) ∧
    (sHostOne.txde = true ∧ sHostOne.hrdf = true ∧ sHostOne.bootMode = .off) ∧
    (sHostFull.txde = false ∧ sHostFull.hrdf = true ∧ sHostFull.bootMode = .off) := by decide
theorem witness_DspToHostPathTable :
    (s0.htde = true ∧ s0.rxdf = false) ∧ (sDspOne.htde = true ∧ sDspOne.rxdf = true) ∧
    (sDspFull.htde = false ∧ sDspFull.rxdf = true) := by decide
theorem witness_EmptyChannelReadsReturnSentinels :
    s0.hsr.getLsbD 0 = false ∧ s0.isr.getLsbD 0 = false := by decide
theorem witness_HostWordsReachTheDspInOrder :
    s0.bootMode = .off ∧ s0.txde = true ∧ s0.hrdf = false := by decide
theorem witness_DspWordsReachTheHostAndOneIsLost : s0.htde = true ∧ s0.rxdf = false := by decide
theorem witness_OnlyTheLowByteWriteClearsTxde :
    (∀ i ∈ [Instr.hwTxh 0x12, .drHtrx], ∀ b, i ≠ .hwTxl b) ∧ s0.txde = true ∧
    ∃ t, execAll [.hwTxh 0x12, .drHtrx] s0 = .next t :=
  ⟨by simp, by decide, _, rfl⟩
theorem witness_BootWrites :
    (sBoot 0).bootMode = .active ∧ (sBoot 0).bootOffset < 0x800 ∧
    (sBoot 0x7ff).bootMode = .active ∧ (sBoot 0x7ff).bootOffset < 0x800 := by decide
theorem witness_BootAbort : (sBoot 5).bootMode = .active ∧ (0x08#8).getLsbD 3 = true := by decide
theorem witness_BootstrapLoadsTheStreamedImage :
    (sBoot 0x7fe).bootMode = .active ∧ (sBoot 0x7fe).bootOffset < 0x800 ∧
    (sBoot 0x7fe).bootOffset + [((0x12 : Byte), (0x34 : Byte)), (0x56, 0x78)].length ≤ 0x800 := by decide
/-- A host write of ICR without bit 3, and a read, while the bootstrap is active. -/
theorem witness_BootstrapModeChangesThreeWritesOnly :
    Instr.hwIcr 0x10 ≠ .reset ∧ (∀ b, Instr.hwIcr 0x10 ≠ .hwTxh b) ∧ (∀ b, Instr.hwIcr 0x10 ≠ .hwTxl b) ∧
    (∀ b : Byte, b.getLsbD 3 = true → Instr.hwIcr 0x10 ≠ .hwIcr b) ∧
    ∃ t, exec (.hwIcr 0x10) (sBoot 2) = .next t := by
  refine ⟨by decide, by simp, by simp, ?_, _, rfl⟩
  intro b hb h
  cases h
  revert hb
  decide
/-- One event that raises each request. -/
theorem witness_RequestsAreRaisedExactlyThen :
    look (.hwCvr 0x80) { s0 with hcr := 0x0004 } State.outs = some [.irq .hostCommand] ∧
    look (.hwTxl 0x34) { s0 with hcr := 0x0001 } State.outs = some [.irq .hostReceiveData] ∧
    look .hrRxl sDspFull State.outs = some [.irq .hostTransmitData] := by decide
theorem witness_AtMostOneRequestAndDiagnostic :
    (∃ t, exec (.hwCvr 0xe5) { s0 with hcr := 0x0004 } = .next t) ∧ isWriteEvent .hrIcr = false ∧
    ∃ t, exec .hrIcr s0 = .next t :=
  ⟨⟨_, rfl⟩, by decide, _, rfl⟩
theorem witness_RepeatedCommandsRaiseAgain :
    ({ s0 with hcr := 0x0004 } : State).hcie = true ∧ (∀ b ∈ [0x85#8, 0x80#8], b.getLsbD 7 = true) ∧
    ∃ t, execAll ([0x85#8, 0x80#8].map .hwCvr) { s0 with hcr := 0x0004 } = .next t :=
  ⟨by decide, by decide, _, rfl⟩
theorem witness_RaisingIgnoresIpr : ∃ t, exec (.hwCvr 0x80) { s0 with hcr := 0x0004 } = .next t := ⟨_, rfl⟩
/-- An empty channel read changes nothing; both consuming reads with their flag set. -/
theorem witness_OnlyTwoReadsChangeState :
    isWriteEvent .drHtrx = false ∧ Instr.drHtrx ≠ .reset ∧ s0.hrdf = false ∧ (∃ t, exec .drHtrx s0 = .next t) ∧
    sHostOne.hrdf = true ∧ (∃ t, exec .drHtrx sHostOne = .next t) ∧
    sDspOne.rxdf = true ∧ ∃ t, exec .hrRxl sDspOne = .next t :=
  ⟨by decide, by decide, by decide, ⟨_, rfl⟩, by decide, ⟨_, rfl⟩, by decide, _, rfl⟩
theorem witness_HostEventFrame :
    isHostEvent (.hwTxl 0x34) = true ∧ (∃ t, exec (.hwTxl 0x34) s0 = .next t) ∧
    isHostEvent .hrIsr = true ∧ isWriteEvent .hrIsr = false ∧ (∃ t, exec .hrIsr s0 = .next t) ∧
    sDspOne.rxdf = true ∧ (∃ t, exec .hrRxl sDspOne = .next t) ∧
    (∃ t, exec (.hwInvalid 0x08 0x01) s0 = .next t) ∧
    sHostFull.txde = false ∧ sHostFull.bootMode = .off ∧ ∃ t, exec (.hwTxl 0x66) sHostFull = .next t :=
  ⟨by decide, ⟨_, rfl⟩, by decide, by decide, ⟨_, rfl⟩, by decide, ⟨_, rfl⟩, ⟨_, rfl⟩, by decide, by decide, _, rfl⟩
theorem witness_DspEventFrame :
    isDspEvent (.dwPcd 0x0005) = true ∧ (∃ t, exec (.dwPcd 0x0005) s0 = .next t) ∧
    isDspEvent .drHsr = true ∧ isWriteEvent .drHsr = false ∧ (∃ t, exec .drHsr s0 = .next t) ∧
    sHostOne.hrdf = true ∧ ∃ t, exec .drHtrx sHostOne = .next t :=
  ⟨by decide, ⟨_, rfl⟩, by decide, by decide, ⟨_, rfl⟩, by decide, _, rfl⟩
/-- Two states that differ on the other side only. -/
theorem witness_ReadsDependOnTheirOwnSide :
    (isDspEvent .drHtrx = true ∧ isWriteEvent .drHtrx = false ∧
      (∃ t t', exec .drHtrx sHostOne = .next t ∧ exec .drHtrx { sHostOne with icr := 0x1b } = .next t')) ∧
    isHostEvent .hrRxl = true ∧ isWriteEvent .hrRxl = false ∧
      ∃ t t', exec .hrRxl sDspOne = .next t ∧ exec .hrRxl { sDspOne with hcr := 0x001f } = .next t' :=
  ⟨⟨by decide, by decide, _, _, rfl, rfl⟩, by decide, by decide, _, _, rfl, rfl⟩
theorem witness_ConfigurationAndProgramMemoryFrame :
    look (.hwTxh 0x12) (sBoot 0) (fun t => decide (t.pmem ≠ (sBoot 0).pmem)) = some true := by decide

end Sys2Proof.Machine.Tests
end

section
/-! SUPPORT. The register-level sets over whole registers: the chains of field stores of Laws/RegisterFile.lean are one
masked copy of the written data, which under the reserved-bit premise of 10_state.md R30 is the data's valid bits. -/

namespace Sys2Proof.Machine

/-! ## Copying the bits of a mask -/

/-- The register with the bits of the mask taken from v (40_register_file.md R83: field stores from one datum compose to
this). -/
def copyBits {w : Nat} (m r v : BitVec w) : BitVec w := (r &&& ~~~m) ||| (v &&& m)

/-- A bit after a masked copy. -/
theorem getLsbD_copyBits {w : Nat} (m r v : BitVec w) (j : Nat) :
    (copyBits m r v).getLsbD j = if m.getLsbD j then v.getLsbD j else r.getLsbD j := by
  by_cases hj : j < w
  · cases hm : m.getLsbD j <;>
      simp only [copyBits, BitVec.getLsbD_or, BitVec.getLsbD_and, BitVec.getLsbD_not, hj, hm] <;> simp
  · simp [BitVec.getLsbD_of_ge _ _ (Nat.le_of_not_lt hj)]

/-- Copying under two masks from one datum is copying under their union. -/
theorem copyBits_copyBits {w : Nat} (m n r v : BitVec w) :
    copyBits n (copyBits m r v) v = copyBits (m ||| n) r v := by
  apply BitVec.eq_of_getLsbD_eq
  intro j _
  cases hm : m.getLsbD j <;> cases hn : n.getLsbD j <;> simp [getLsbD_copyBits, hm, hn]

/-- A register with no bit outside the mask keeps none of its old bits. -/
theorem copyBits_of_outside_eq_zero {w : Nat} (m r v : BitVec w) (h : outside m r = 0) :
    copyBits m r v = v &&& m := by
  have hr : r &&& ~~~m = 0#w := h
  rw [copyBits, hr, BitVec.zero_or]

/-- Storing a field of the datum in its own place copies the field's bits. -/
theorem putField_extractLsb'_eq_copyBits {w : Nat} (r v : BitVec w) (lo n : Nat) :
    putField r lo (v.extractLsb' lo n) = copyBits (fieldMask w lo n) r v := by
  apply BitVec.eq_of_getLsbD_eq
  intro j hj
  rw [getLsbD_putField, getLsbD_copyBits, getLsbD_fieldMask]
  by_cases hin : lo ≤ j ∧ j < lo + n
  · obtain ⟨hlo, hhi⟩ := hin
    have hlt : j - lo < n := by omega
    simp [hj, hlo, hhi, hlt]
  · rw [if_neg (by tauto), if_neg (by simp; omega)]

/-- Storing a bit of the datum in its own place copies that bit. -/
theorem putBit_getLsbD_eq_copyBits {w : Nat} (r v : BitVec w) (k : Nat) :
    putBit r k (v.getLsbD k) = copyBits (fieldMask w k 1) r v := by
  apply BitVec.eq_of_getLsbD_eq
  intro j hj
  rw [getLsbD_putBit, getLsbD_copyBits, getLsbD_fieldMask]
  by_cases hjk : j = k
  · subst hjk; simp [hj]
  · rw [if_neg (by tauto), if_neg (by simp; omega)]

/-- A one-bit store sets or clears the bit's mask. -/
theorem putBit_eq_ite {w : Nat} (r : BitVec w) (k : Nat) (b : Bool) :
    putBit r k b = if b then r ||| fieldMask w k 1 else r &&& ~~~fieldMask w k 1 := by
  apply BitVec.eq_of_getLsbD_eq
  intro j hj
  have hmask : (fieldMask w k 1).getLsbD j = decide (j = k) := by
    rw [getLsbD_fieldMask]
    simp only [hj, decide_true, Bool.true_and, ← Bool.decide_and]
    exact decide_eq_decide.2 (by omega)
  cases b with
  | false =>
    simp only [getLsbD_putBit, Bool.false_eq_true, if_false, BitVec.getLsbD_and, BitVec.getLsbD_not, hmask, hj]
    by_cases hjk : j = k <;> simp [hjk]
  | true =>
    simp only [getLsbD_putBit, if_true, BitVec.getLsbD_or, hmask, hj]
    by_cases hjk : j = k <;> simp [hjk]

/-! ## The registers after their sets -/

/-- R84's four field stores leave the valid bits of the datum. -/
theorem icrFields_eq_and_mask (r v : Byte) (h : outside Layout.maskICR r = 0) :
    putBit (putBit (putBit (putBit r 4 (v.getLsbD 4)) 3 (v.getLsbD 3)) 1 (v.getLsbD 1)) 0 (v.getLsbD 0) =
      v &&& 0x1b#8 := by
  simp only [putBit_getLsbD_eq_copyBits, copyBits_copyBits]
  exact copyBits_of_outside_eq_zero 0x1b#8 r v h

/-- R87's two field stores leave the valid bits of the datum. -/
theorem cvrFields_eq_and_mask (r v : Byte) (h : outside Layout.maskCVR r = 0) :
    putField (putBit r 7 (v.getLsbD 7)) 0 (v.extractLsb' 0 5) = v &&& 0x9f#8 := by
  rw [putBit_getLsbD_eq_copyBits, putField_extractLsb'_eq_copyBits, copyBits_copyBits]
  exact copyBits_of_outside_eq_zero 0x9f#8 r v h

/-- R92's five field stores leave the valid bits of the datum. -/
theorem hcrFields_eq_and_mask (r v : Word) (h : outside Layout.maskHCR r = 0) :
    putBit (putBit (putBit (putBit (putBit r 4 (v.getLsbD 4)) 3 (v.getLsbD 3)) 2 (v.getLsbD 2)) 1 (v.getLsbD 1)) 0
      (v.getLsbD 0) = v &&& 0x001f#16 := by
  simp only [putBit_getLsbD_eq_copyBits, copyBits_copyBits]
  exact copyBits_of_outside_eq_zero 0x001f#16 r v h

/-- Bits 4 and 3 of a datum of any width, mirrored into a register, are one masked copy (R85 and R86 into HSR, R93 and
R94 into ISR). -/
theorem mirrorBits_eq_copyBits {w n : Nat} (r : BitVec w) (v : BitVec n) (hw : 4 < w) :
    putBit (putBit r 4 (v.getLsbD 4)) 3 (v.getLsbD 3) =
      copyBits (fieldMask w 4 1 ||| fieldMask w 3 1) r (v.setWidth w) := by
  have hbit (k : Nat) (hk : k < w) : v.getLsbD k = (v.setWidth w).getLsbD k := by simp [hk]
  rw [hbit 4 hw, hbit 3 (by omega), putBit_getLsbD_eq_copyBits, putBit_getLsbD_eq_copyBits, copyBits_copyBits]

/-- HSR after its mirrors of HF1 and HF0 are stored. -/
theorem hsrMirrors_eq (r : Word) (v : Byte) :
    putBit (putBit r 4 (v.getLsbD 4)) 3 (v.getLsbD 3) = (r &&& 0xffe7#16) ||| ((v &&& 0x18#8).setWidth 16) := by
  rw [mirrorBits_eq_copyBits r v (by decide), BitVec.setWidth_and]
  rfl

/-- ISR after its mirrors of HF3 and HF2 are stored. -/
theorem isrMirrors_eq (r : Byte) (v : Word) :
    putBit (putBit r 4 (v.getLsbD 4)) 3 (v.getLsbD 3) = (r &&& 0xe7#8) ||| ((v &&& 0x0018#16).setWidth 8) := by
  rw [mirrorBits_eq_copyBits r v (by decide), BitVec.setWidth_and]
  rfl

/-- HSR after HCP is stored. -/
theorem hsrCommand_eq (r : Word) (b : Bool) :
    putBit r 2 b = if b then r ||| 0x0004#16 else r &&& 0xfffb#16 :=
  putBit_eq_ite r 2 b

/-! ## The write events as their sets -/

/-- HW.ICR that is not an abort (R196). -/
theorem exec_hwIcr_of_not_abort (b : Byte) (s : State) (h : ¬(s.bootMode = .active ∧ b.getLsbD 3 = true)) :
    exec (.hwIcr b) s = .next (icrSet b s) :=
  congrArg Host.Outcome.next (if_neg h)

theorem exec_hwCvr (b : Byte) (s : State) : exec (.hwCvr b) s = .next (cvrSet b s) := rfl
theorem exec_hwIvr (b : Byte) (s : State) : exec (.hwIvr b) s = .next (ivrSet b s) := rfl
theorem exec_dwHcr (w : Word) (s : State) : exec (.dwHcr w) s = .next (hcrSet w s) := rfl
theorem exec_dwIpr (w : Word) (s : State) : exec (.dwIpr w) s = .next (iprSet w s) := rfl
theorem exec_dwPbc (w : Word) (s : State) : exec (.dwPbc w) s = .next (pbcSet w s) := rfl
theorem exec_dwBcr (w : Word) (s : State) : exec (.dwBcr w) s = .next (bcrSet w s) := rfl
theorem exec_dwPcd (w : Word) (s : State) : exec (.dwPcd w) s = .next (pcdSet w s) := rfl

/-- DW.P at an unnamed address of the window (R170). -/
theorem exec_dwP_of_isPlainAddr (a w : Word) (s : State) (h : isPlainAddr a = true) :
    exec (.dwP a w) s = .next (writePlain a w s) :=
  if_pos h

/-- IVR has no reserved bit (R98). -/
theorem ivrSet_eq (v : Byte) (s : State) : ivrSet v s = { s with ivr := v } := by
  have hall : v &&& Layout.maskIVR = v := BitVec.and_allOnes
  rw [ivrSet, hall]

/-- IPR has no reserved bit (R99). -/
theorem iprSet_eq (v : Word) (s : State) : iprSet v s = { s with ipr := v } := by
  have hall : v &&& Layout.maskIPR = v := BitVec.and_allOnes
  rw [iprSet, hall]

/-- R103 as one update, the diagnostic in the words of Safety. -/
theorem pSet_eq_diagIf (reg : RegName) (i : Fin dspCount) (m v : Word) (s : State) :
    pSet reg i m v s = { s with p := s.p.set i (v &&& m), outs := s.outs ++ diagIf reg (v &&& ~~~m) } := by
  rw [pSet_eq, reservedOuts_word]

/-- The write of an address of class Plain. -/
theorem writePlain_of_plain (a w m : Word) (s : State) (h : s.cfg.dspMap.get (dspIndex a) = .plain m) :
    writePlain a w s = pSet (.p (dspIndex a)) (dspIndex a) m w s := by
  rw [writePlain, h]

/-- The write of an address of class Discard. -/
theorem writePlain_of_discard (a w : Word) (s : State) (h : s.cfg.dspMap.get (dspIndex a) = .discard) :
    writePlain a w s = emit (.diag (.reservedAddress a)) s := by
  rw [writePlain, h]

/-! ## The obligations -/

/-- Settles O21: R84's field stores, as one masked copy for ICR and one for the mirrors in HSR. -/
theorem hostWriteOfIcr : Obligations.HostWriteOfIcr := by
  intro s b hreserved hnotAbort
  rw [exec_hwIcr_of_not_abort b s hnotAbort, icrSet_eq, icrFields_eq_and_mask s.icr b hreserved, hsrMirrors_eq,
    reservedOuts_byte]
  rfl

/-- Settles O22: R87's field stores; HCP is set or cleared with HC, and the request follows the diagnostic. -/
theorem hostWriteOfCvr : Obligations.HostWriteOfCvr := by
  intro s b hreserved
  rw [exec_hwCvr, cvrSet_eq, cvrFields_eq_and_mask s.cvr b hreserved, hsrCommand_eq, reservedOuts_byte]
  rfl

/-- Settles O23: R92's field stores, as one masked copy for HCR and one for the mirrors in ISR. -/
theorem dspWriteOfHcr : Obligations.DspWriteOfHcr := by
  intro s w hreserved
  rw [exec_dwHcr, hcrSet_eq, hcrFields_eq_and_mask s.hcr w hreserved, isrMirrors_eq, reservedOuts_word]
  rfl

/-- Settles O24: IVR and IPR have no reserved bits; the other three are P_set under their masks (R100 to R102). -/
theorem writesOfPlainRegisters : Obligations.WritesOfPlainRegisters := by
  intro s
  refine ⟨fun b => ?ivr, fun w => ?ipr, fun w => ?pbc, fun w => ?bcr, fun w => ?pcd⟩
  case ivr => rw [exec_hwIvr, ivrSet_eq]
  case ipr => rw [exec_dwIpr, iprSet_eq]
  case pbc =>
    rw [exec_dwPbc, pbcSet, pSet_eq_diagIf]
    rfl
  case bcr =>
    rw [exec_dwBcr, bcrSet, pSet_eq_diagIf]
    rfl
  case pcd =>
    rw [exec_dwPcd, pcdSet, pSet_eq_diagIf]
    rfl

/-- Settles O25: the entry of the address is k, and the write goes by the class of that entry (R170). -/
theorem dspWriteOfPlainAddress : Obligations.DspWriteOfPlainAddress := by
  intro s a w k haddr hplain
  obtain rfl : dspIndex a = k := dspIndex_eq a k haddr
  rw [exec_dwP_of_isPlainAddr a w s hplain]
  constructor
  · intro m hclass
    rw [writePlain_of_plain a w m s hclass, pSet_eq_diagIf]
  · intro hclass
    rw [writePlain_of_discard a w s hclass]
    rfl

end Sys2Proof.Machine
end

section
/-! SUPPORT. The bootstrap abort: HF0 and its mirror as whole-register updates, and the write event that aborts. -/

namespace Sys2Proof.Machine

/-- ICR after HF0 is set. -/
theorem icrHF0_eq (r : Byte) : putBit r 3 true = r ||| 0x08#8 := putBit_eq_ite r 3 true

/-- HSR after the mirror of HF0 is set. -/
theorem hsrHF0_eq (r : Word) : putBit r 3 true = r ||| 0x0008#16 := putBit_eq_ite r 3 true

/-- HW.ICR that aborts the bootstrap (R150); the other branch is `exec_hwIcr_of_not_abort`. -/
theorem exec_hwIcr_of_abort (b : Byte) (s : State) (h : s.bootMode = .active ∧ b.getLsbD 3 = true) :
    exec (.hwIcr b) s = .next (bootAbort s) :=
  congrArg Host.Outcome.next (if_pos h)

namespace Bootstrap

/-- Settles O36: the write is the abort of R150, whose only bit store is the optional latch of HF0 and its mirror. The
model has a function of this name, so the theorem has a namespace of its own. -/
theorem bootAbort : Obligations.BootAbort := by
  intro s b hactive hbit
  rw [exec_hwIcr_of_abort b s ⟨hactive, hbit⟩, bootAbort_eq, icrHF0_eq, hsrHF0_eq]

end Bootstrap

end Sys2Proof.Machine
end

section
/-! SUPPORT. Reads of the data channels while they are empty (60_exceptions.md R218): each branch that does not consume
is a sentinel returned from an untouched state. -/

namespace Sys2Proof.Machine

/-- HRDF is bit 0 of HSR (30_encoding.md R68). -/
theorem State.hrdf_eq_getLsbD (s : State) : s.hrdf = s.hsr.getLsbD 0 := rfl

/-- RXDF is bit 0 of ISR (30_encoding.md R65). -/
theorem State.rxdf_eq_getLsbD (s : State) : s.rxdf = s.isr.getLsbD 0 := rfl

/-- DR.HTRX on an empty channel (R168). -/
theorem exec_drHtrx_of_empty (s : State) (h : s.hrdf = false) :
    exec .drHtrx s = .next (withResult (.word 0xbeef) s) :=
  congrArg Host.Outcome.next (if_neg (Bool.eq_false_iff.mp h))

/-- HR.RXH on an empty channel (R191): the branch chooses the returned byte only. -/
theorem exec_hrRxh_of_empty (s : State) (h : s.rxdf = false) :
    exec .hrRxh s = .next (withResult (.byte 0xbf) s) :=
  congrArg (fun b => Host.Outcome.next (withResult (.byte b) s)) (if_neg (Bool.eq_false_iff.mp h))

/-- HR.RXL on an empty channel (R192): RXDF is already 0 and its coupled setter is not called, so no transfer starts. -/
theorem exec_hrRxl_of_empty (s : State) (h : s.rxdf = false) :
    exec .hrRxl s = .next (withResult (.byte 0xbf) s) :=
  congrArg Host.Outcome.next (if_neg (Bool.eq_false_iff.mp h))

/-- Settles O30: each of the three reads takes its sentinel branch, whose one update is the result (R218). -/
theorem emptyChannelReadsReturnSentinels : Obligations.EmptyChannelReadsReturnSentinels := by
  intro s
  refine ⟨fun hhsr => ?htrx, fun hisr => ⟨?rxh, ?rxl⟩⟩
  case htrx => exact exec_drHtrx_of_empty s (s.hrdf_eq_getLsbD.trans hhsr)
  case rxh => exact exec_hrRxh_of_empty s (s.rxdf_eq_getLsbD.trans hisr)
  case rxl => exact exec_hrRxl_of_empty s (s.rxdf_eq_getLsbD.trans hisr)

end Sys2Proof.Machine
end

section
/-! SUPPORT. Decode and encode as one relation: `Spells e i` lists the five shapes of an event word (30_encoding.md R60
to R62) with the event each stands for, and the decoder answers exactly these. -/

namespace Sys2Proof

/-! ## Words from their fields -/

/-- A word is built from its four fields (R60). -/
@[simp] theorem eventWord_fields (e : EventWord) : eventWord (evAgent e) (evWrite e) (evAddr e) (evData e) = e := by
  apply BitVec.eq_of_getLsbD_eq
  intro j hj
  change ((((evAgent e ++ BitVec.ofBool (evWrite e)) ++ evAddr e) ++ evData e : BitVec (2 + 1 + 16 + 16))).getLsbD j = _
  simp only [BitVec.getLsbD_append, evAgent, evWrite, evAddr, evData, BitVec.getLsbD_extractLsb', BitVec.getLsbD_ofBool]
  by_cases h16 : j < 16
  · simp [h16]
  · by_cases h32 : j < 32
    · have hlt : j - 16 < 16 := by omega
      have hadd : 16 + (j - 16) = j := by omega
      simp [h16, hlt, hadd]
    · by_cases h33 : j = 32
      · subst h33
        simp
      · have h1 : ¬ j - 16 < 16 := by omega
        have h2 : ¬ j - 16 - 16 < 1 := by omega
        have hlt : j - 16 - 16 - 1 < 2 := by omega
        have hadd : 33 + (j - 16 - 16 - 1) = j := by omega
        simp [h16, h1, h2, hlt, hadd]

/-- A word is its low byte widened, if its high byte is 0. -/
theorem setWidth_lowByte_of_highByte (x : Word) (h : x.extractLsb' 8 8 = 0#8) :
    (x.extractLsb' 0 8).setWidth 16 = x := by
  apply BitVec.eq_of_getLsbD_eq
  intro j hj
  by_cases h8 : j < 8
  · simp [hj, h8]
  · have hbit := congrArg (fun y => y.getLsbD (j - 8)) h
    have hlt : j - 8 < 8 := by omega
    have hadd : 8 + (j - 8) = j := by omega
    simp only [BitVec.getLsbD_extractLsb', hlt, hadd, decide_true, Bool.true_and, BitVec.getLsbD_zero] at hbit
    simp [BitVec.getLsbD_setWidth, BitVec.getLsbD_extractLsb', h8, hbit]

/-! ## The five shapes of an event word -/

/-- The word e spells the event i (R73 to R75). -/
inductive Spells : EventWord → Instr → Prop
  | hostRead (o : Byte) : Spells (encodeHostRead o) (decodeHostRead o)
  | hostWrite (o b : Byte) : Spells (encodeHostWrite o b) (decodeHostWrite o b)
  | dspRead (a : Word) (ha : inWindow a = true) : Spells (encodeDspRead a) (decodeDspRead a)
  | dspWrite (a w : Word) (ha : inWindow a = true) : Spells (encodeDspWrite a w) (decodeDspWrite a w)
  | reset : Spells (encode .reset) .reset

theorem decode_encodeHostRead (o : Byte) : decode (encodeHostRead o) = .ok (decodeHostRead o) := by
  simp [decode, encodeHostRead, evOffset, bytes_setWidth]

theorem decode_encodeHostWrite (o b : Byte) : decode (encodeHostWrite o b) = .ok (decodeHostWrite o b) := by
  simp [decode, encodeHostWrite, evOffset, evHostData, bytes_setWidth]

theorem decode_encodeDspRead (a : Word) (ha : inWindow a = true) :
    decode (encodeDspRead a) = .ok (decodeDspRead a) := by
  simp [decode, encodeDspRead, ha]

theorem decode_encodeDspWrite (a w : Word) (ha : inWindow a = true) :
    decode (encodeDspWrite a w) = .ok (decodeDspWrite a w) := by
  simp [decode, encodeDspWrite, ha]

/-- The decoder reads what a word spells. -/
theorem decode_of_spells {e : EventWord} {i : Instr} (h : Spells e i) : decode e = .ok i := by
  cases h with
  | hostRead o => exact decode_encodeHostRead o
  | hostWrite o b => exact decode_encodeHostWrite o b
  | dspRead a ha => exact decode_encodeDspRead a ha
  | dspWrite a w ha => exact decode_encodeDspWrite a w ha
  | reset => rfl

/-- A word with agent HOST and zero high bytes spells a host event. -/
theorem spells_of_host {e : EventWord} (hag : evAgent e = Layout.agentHost)
    (haddr : (evAddr e).extractLsb' 8 8 = 0#8) (hdata : (evData e).extractLsb' 8 8 = 0#8)
    (hrd : evWrite e = false → evData e = 0) : ∃ i, Spells e i := by
  rw [← eventWord_fields e, hag, ← setWidth_lowByte_of_highByte (evAddr e) haddr]
  cases hwr : evWrite e
  · rw [hrd hwr]
    exact ⟨_, .hostRead _⟩
  · rw [← setWidth_lowByte_of_highByte (evData e) hdata]
    exact ⟨_, .hostWrite _ _⟩

/-- A word with agent DSP and an address of the window spells a DSP event. -/
theorem spells_of_dsp {e : EventWord} (hag : evAgent e = Layout.agentDsp) (haddr : inWindow (evAddr e) = true)
    (hrd : evWrite e = false → evData e = 0) : ∃ i, Spells e i := by
  rw [← eventWord_fields e, hag]
  cases hwr : evWrite e
  · rw [hrd hwr]
    exact ⟨_, .dspRead _ haddr⟩
  · exact ⟨_, .dspWrite _ _ haddr⟩

/-- The word with agent SYSTEM and nothing else spells RESET. -/
theorem spells_of_system {e : EventWord} (hag : evAgent e = Layout.agentSystem) (hwr : evWrite e = false)
    (haddr : evAddr e = 0) (hdata : evData e = 0) : ∃ i, Spells e i := by
  rw [← eventWord_fields e, hag, hwr, haddr, hdata]
  exact ⟨_, .reset⟩

/-- There is no fifth agent code. -/
theorem agent_cases (g : BitVec 2) :
    g = Layout.agentHost ∨ g = Layout.agentDsp ∨ g = Layout.agentSystem ∨ g = Layout.agentNone := by
  revert g
  decide

/-- A word spells some event exactly if it satisfies the five clauses of R61. -/
theorem exists_spells_iff_isEvent (e : EventWord) : (∃ i, Spells e i) ↔ isEvent e = true := by
  constructor
  · rintro ⟨i, h⟩
    cases h with
    | hostRead o => exact isEvent_encodeHostRead o
    | hostWrite o b => exact isEvent_encodeHostWrite o b
    | dspRead a ha => exact isEvent_encodeDspRead a ha
    | dspWrite a w ha => exact isEvent_encodeDspWrite a w ha
    | reset => rfl
  · intro h
    simp only [isEvent, Bool.and_eq_true, Bool.or_eq_true, bne_iff_ne, beq_iff_eq, Bool.not_eq_true'] at h
    obtain ⟨⟨⟨⟨hnone, hsystem⟩, hhost⟩, hdsp⟩, hread⟩ := h
    have hrd : evWrite e = false → evData e = 0 := fun hw => hread.resolve_left (by simp [hw])
    rcases agent_cases (evAgent e) with hag | hag | hag | hag
    · obtain ⟨haddr, hdata⟩ := hhost.resolve_left (not_not_intro hag)
      exact spells_of_host hag haddr hdata hrd
    · exact spells_of_dsp hag (hdsp.resolve_left (not_not_intro hag)) hrd
    · obtain ⟨⟨hwr, haddr⟩, hdata⟩ := hsystem.resolve_left (not_not_intro hag)
      exact spells_of_system hag hwr haddr hdata
    · exact absurd hag hnone

/-- What the decoder reads satisfies the five clauses: each of its refusals is one of them broken. -/
theorem isEvent_of_decode {e : EventWord} {i : Instr} (h : decode e = .ok i) : isEvent e = true := by
  unfold decode at h
  split at h
  · cases h
  · next hnone =>
    split at h
    · next hsystem =>
      split at h
      · cases h
      · next hzero => simp_all [isEvent]
    · next hsystem =>
      split at h
      · next hhost =>
        split at h
        · cases h
        · next hhigh =>
          split at h
          · next hwr => simp_all [isEvent]
          · split at h
            · cases h
            · next hdata => simp_all [isEvent]
      · next hhost =>
        have hdsp : evAgent e = Layout.agentDsp := by
          rcases agent_cases (evAgent e) with hag | hag | hag | hag
          · exact absurd hag hhost
          · exact hag
          · exact absurd hag hsystem
          · exact absurd hag hnone
        split at h
        · cases h
        · split at h
          · next hwr => simp_all [isEvent]
          · split at h
            · cases h
            · simp_all [isEvent]

/-- The decoder's answers are exactly what the words spell. -/
theorem decode_eq_ok_iff (e : EventWord) (i : Instr) : decode e = .ok i ↔ Spells e i := by
  refine ⟨fun h => ?_, decode_of_spells⟩
  obtain ⟨j, hj⟩ := (exists_spells_iff_isEvent e).mpr (isEvent_of_decode h)
  have hij : Except.ok (ε := NotEvent) i = .ok j := h.symm.trans (decode_of_spells hj)
  cases hij
  exact hj

end Sys2Proof
end

section
/-! SUPPORT. The columns of the decode against the encoder, event by event, and the encoding statements. -/

namespace Sys2Proof

/-! ## The columns of the decode -/

/-- An offset with no name of its own is of the "any other offset" range (R73). -/
theorem isInvalidOffset_iff (o : Byte) : isInvalidOffset o = true ↔ 0x08 ≤ o.toNat := by
  simp [isInvalidOffset, BitVec.ule]

/-- The range of invalid offsets is what the eight names leave. -/
theorem isInvalidOffset_of_unnamed (o : Byte) (h : o ≠ 0x00#8 ∧ o ≠ 0x01#8 ∧ o ≠ 0x02#8 ∧ o ≠ 0x03#8 ∧ o ≠ 0x04#8 ∧
    o ≠ 0x05#8 ∧ o ≠ 0x06#8 ∧ o ≠ 0x07#8) : isInvalidOffset o = true := by
  rw [isInvalidOffset_iff]
  bv_omega

/-- An offset of the range has none of the eight names. -/
theorem unnamed_of_isInvalidOffset (o : Byte) (h : isInvalidOffset o = true) :
    o ≠ 0x00#8 ∧ o ≠ 0x01#8 ∧ o ≠ 0x02#8 ∧ o ≠ 0x03#8 ∧ o ≠ 0x04#8 ∧ o ≠ 0x05#8 ∧ o ≠ 0x06#8 ∧ o ≠ 0x07#8 := by
  rw [isInvalidOffset_iff] at h
  bv_omega

/-- The read column decodes the word of an offset to the event of that word. -/
theorem decodeHostRead_spec (o : Byte) :
    (decodeHostRead o).wellFormed = true ∧ encode (decodeHostRead o) = encodeHostRead o := by
  unfold decodeHostRead
  iterate 8 (split; (next h => subst h; exact ⟨rfl, rfl⟩))
  exact ⟨isInvalidOffset_of_unnamed o (by tauto), rfl⟩

/-- The write column decodes the word of an offset and a byte to the event of that word. -/
theorem decodeHostWrite_spec (o b : Byte) :
    (decodeHostWrite o b).wellFormed = true ∧ encode (decodeHostWrite o b) = encodeHostWrite o b := by
  unfold decodeHostWrite
  iterate 8 (split; (next h => subst h; exact ⟨rfl, rfl⟩))
  exact ⟨isInvalidOffset_of_unnamed o (by tauto), rfl⟩

/-- An address is unnamed exactly if it is in the window and none of the seven (R170, R171). -/
theorem isPlainAddr_iff (a : Word) : isPlainAddr a = true ↔ inWindow a = true ∧
    a ≠ 0xffc0#16 ∧ a ≠ 0xffc4#16 ∧ a ≠ 0xffde#16 ∧ a ≠ 0xffdf#16 ∧ a ≠ 0xffe3#16 ∧ a ≠ 0xffe4#16 ∧ a ≠ 0xffe5#16 := by
  simp [isPlainAddr, isNamedAddr, and_assoc]

/-- The DSP read column decodes the word of an address of the window to the event of that word. -/
theorem decodeDspRead_spec (a : Word) (ha : inWindow a = true) :
    (decodeDspRead a).wellFormed = true ∧ encode (decodeDspRead a) = encodeDspRead a := by
  unfold decodeDspRead
  iterate 7 (split; (next h => subst h; exact ⟨rfl, rfl⟩))
  exact ⟨(isPlainAddr_iff a).mpr (by tauto), rfl⟩

/-- The DSP write column decodes the word of an address of the window and a datum to the event of that word. -/
theorem decodeDspWrite_spec (a w : Word) (ha : inWindow a = true) :
    (decodeDspWrite a w).wellFormed = true ∧ encode (decodeDspWrite a w) = encodeDspWrite a w := by
  unfold decodeDspWrite
  iterate 7 (split; (next h => subst h; exact ⟨rfl, rfl⟩))
  exact ⟨(isPlainAddr_iff a).mpr (by tauto), rfl⟩

/-- What a word spells is well formed, and the word is its encoding. -/
theorem spells_spec {e : EventWord} {i : Instr} (h : Spells e i) : i.wellFormed = true ∧ encode i = e := by
  cases h with
  | hostRead o => exact decodeHostRead_spec o
  | hostWrite o b => exact decodeHostWrite_spec o b
  | dspRead a ha => exact decodeDspRead_spec a ha
  | dspWrite a w ha => exact decodeDspWrite_spec a w ha
  | reset => exact ⟨rfl, rfl⟩

/-! ## Every event is spelled by its encoding -/

theorem decodeHostRead_of_invalid (o : Byte) (h : isInvalidOffset o = true) : decodeHostRead o = .hrInvalid o := by
  obtain ⟨h0, h1, h2, h3, h4, h5, h6, h7⟩ := unnamed_of_isInvalidOffset o h
  simp [decodeHostRead, h0, h1, h2, h3, h4, h5, h6, h7]

theorem decodeHostWrite_of_invalid (o b : Byte) (h : isInvalidOffset o = true) :
    decodeHostWrite o b = .hwInvalid o b := by
  obtain ⟨h0, h1, h2, h3, h4, h5, h6, h7⟩ := unnamed_of_isInvalidOffset o h
  simp [decodeHostWrite, h0, h1, h2, h3, h4, h5, h6, h7]

theorem decodeDspRead_of_plain (a : Word) (h : isPlainAddr a = true) : decodeDspRead a = .drP a := by
  obtain ⟨_, h0, h1, h2, h3, h4, h5, h6⟩ := (isPlainAddr_iff a).mp h
  simp [decodeDspRead, h0, h1, h2, h3, h4, h5, h6]

theorem decodeDspWrite_of_plain (a w : Word) (h : isPlainAddr a = true) : decodeDspWrite a w = .dwP a w := by
  obtain ⟨_, h0, h1, h2, h3, h4, h5, h6⟩ := (isPlainAddr_iff a).mp h
  simp [decodeDspWrite, h0, h1, h2, h3, h4, h5, h6]

/-- Every well-formed event is spelled by its encoding (R60, R73 to R75). -/
theorem spells_encode (i : Instr) (h : i.wellFormed = true) : Spells (encode i) i := by
  cases i with
  | hrIcr | hrCvr | hrIsr | hrIvr | hrUnused4 | hrRsvd5 | hrRxh | hrRxl => exact .hostRead _
  | hwIcr b | hwCvr b | hwIsr b | hwIvr b | hwUnused4 b | hwRsvd5 b | hwTxh b | hwTxl b => exact .hostWrite _ b
  | drPbc | drHcr | drBcr | drIpr | drPcd | drHsr | drHtrx => exact .dspRead _ rfl
  | dwPbc w | dwHcr w | dwBcr w | dwIpr w | dwPcd w | dwHsr w | dwHtrx w => exact .dspWrite _ w rfl
  | hrInvalid o =>
    rw [← decodeHostRead_of_invalid o h, (decodeHostRead_spec o).2]
    exact .hostRead o
  | hwInvalid o b =>
    rw [← decodeHostWrite_of_invalid o b h, (decodeHostWrite_spec o b).2]
    exact .hostWrite o b
  | drP a =>
    have ha := inWindow_of_isPlainAddr a h
    rw [← decodeDspRead_of_plain a h, (decodeDspRead_spec a ha).2]
    exact .dspRead a ha
  | dwP a w =>
    have ha := inWindow_of_isPlainAddr a h
    rw [← decodeDspWrite_of_plain a w h, (decodeDspWrite_spec a w ha).2]
    exact .dspWrite a w ha
  | reset => exact .reset

/-! ## The obligations on decode and encode -/

/-- Settles O1: the encoding of an event spells it, and the decoder reads what a word spells. -/
theorem decodeOfEncodeIsTheEvent : Obligations.DecodeOfEncodeIsTheEvent :=
  fun i hwf => decode_of_spells (spells_encode i hwf)

/-- Settles O2: a word that decodes has one of the five shapes, and each is the encoding of what it spells. -/
theorem encodeOfDecodedIsTheWord : Obligations.EncodeOfDecodedIsTheWord :=
  fun e i h => spells_spec ((decode_eq_ok_iff e i).mp h)

/-- The two bytes of the address and the low and high byte of the data as bits of the word. -/
theorem extractLsb'_evAddr_evData (e : EventWord) :
    (evAddr e).extractLsb' 8 8 = e.extractLsb' 24 8 ∧ (evData e).extractLsb' 8 8 = e.extractLsb' 8 8 := by
  constructor <;>
  · apply BitVec.eq_of_getLsbD_eq
    intro j hj
    have hlt : 8 + j < 16 := by omega
    simp [evAddr, evData, hj, hlt, ← Nat.add_assoc]

/-- The five clauses of R61 on the bits of the word. -/
theorem isEvent_iff_clauses (e : EventWord) : isEvent e = true ↔
    e.extractLsb' 33 2 ≠ 0b11#2 ∧
    (e.extractLsb' 33 2 = 0b10#2 →
      e.getLsbD 32 = false ∧ e.extractLsb' 16 16 = 0#16 ∧ e.extractLsb' 0 16 = 0#16) ∧
    (e.extractLsb' 33 2 = 0b00#2 → e.extractLsb' 24 8 = 0#8 ∧ e.extractLsb' 8 8 = 0#8) ∧
    (e.extractLsb' 33 2 = 0b01#2 → 0xffc0 ≤ (e.extractLsb' 16 16).toNat) ∧
    (e.getLsbD 32 = false → e.extractLsb' 0 16 = 0#16) := by
  obtain ⟨haddr, hdata⟩ := extractLsb'_evAddr_evData e
  have hwindow := inWindow_iff (evAddr e)
  simp only [isEvent, haddr, hdata, Bool.and_eq_true, Bool.or_eq_true, bne_iff_ne, beq_iff_eq, Bool.not_eq_true',
    hwindow, and_assoc, ← imp_iff_not_or, ne_eq]
  simp only [evAgent, evWrite, evAddr, evData]
  have hread (p : Prop) : (e.getLsbD 32 = true ∨ p) ↔ (e.getLsbD 32 = false → p) := by
    cases e.getLsbD 32 <;> simp
  rw [hread]
  rfl

/-- Settles O3: a word decodes if it spells an event, and it does so exactly under the five clauses of R61. -/
theorem decodeAcceptsExactlyTheEvents : Obligations.DecodeAcceptsExactlyTheEvents := by
  intro e
  simp only [decode_eq_ok_iff]
  exact (exists_spells_iff_isEvent e).trans (isEvent_iff_clauses e)

/-- Settles O5: each word is the encoding of its event, written out. -/
theorem sampleWordsDecode : Obligations.SampleWordsDecode :=
  ⟨rfl, rfl, rfl, rfl, rfl, rfl, rfl⟩

end Sys2Proof
end

section
/-! SUPPORT. The opcode table (30_encoding.md R79) against the decoder: what a row selects on the four fields of a word,
then the mnemonics each block of rows selects. -/

namespace Sys2Proof

/-! ## A row on the fields of a word -/

/-- Words are equal if their four fields are. -/
theorem eq_iff_fields (e e' : EventWord) : e = e' ↔
    evAgent e = evAgent e' ∧ evWrite e = evWrite e' ∧ evAddr e = evAddr e' ∧ evData e = evData e' := by
  constructor
  · rintro rfl
    exact ⟨rfl, rfl, rfl, rfl⟩
  · rintro ⟨hag, hwr, haddr, hdata⟩
    rw [← eventWord_fields e, ← eventWord_fields e', hag, hwr, haddr, hdata]

/-- Masking a word masks each of its fields. -/
theorem fields_and (e m : EventWord) :
    evAgent (e &&& m) = evAgent e &&& evAgent m ∧ evWrite (e &&& m) = (evWrite e && evWrite m) ∧
    evAddr (e &&& m) = evAddr e &&& evAddr m ∧ evData (e &&& m) = evData e &&& evData m :=
  ⟨BitVec.extractLsb'_and, BitVec.getLsbD_and, BitVec.extractLsb'_and, BitVec.extractLsb'_and⟩

/-- A row that fixes agent and direction selects the words that have those and agree in its bits of address and data. -/
theorem selects_iff (n : String) (g : BitVec 2) (w : Bool) (x d mx md : Word) (e : EventWord) :
    (⟨n, eventWord g w x d, eventWord 0b11#2 true mx md⟩ : OpRow).selects e = true ↔
      evAgent e = g ∧ evWrite e = w ∧ evAddr e &&& mx = x ∧ evData e &&& md = d := by
  obtain ⟨hag, hwr, haddr, hdata⟩ := fields_and e (eventWord 0b11#2 true mx md)
  have hall : evAgent e &&& 0b11#2 = evAgent e := BitVec.and_allOnes
  simp [OpRow.selects, eq_iff_fields, hag, hwr, haddr, hdata, hall]

theorem and_ffff (x : Word) : x &&& 0xffff#16 = x := BitVec.and_allOnes

/-- A mask of the high byte sees only the high byte. -/
theorem and_ff00_eq_zero_iff (d : Word) : d &&& 0xff00#16 = 0#16 ↔ d.extractLsb' 8 8 = 0#8 := by
  have hmask : ∀ j < 16, (0xff00#16).getLsbD j = decide (8 ≤ j) := by decide
  constructor
  · intro h
    apply BitVec.eq_of_getLsbD_eq
    intro j hj
    have hbit := congrArg (fun y => y.getLsbD (8 + j)) h
    simp only [BitVec.getLsbD_and, hmask (8 + j) (by omega), BitVec.getLsbD_zero] at hbit
    simpa [BitVec.getLsbD_extractLsb', hj] using hbit
  · intro h
    apply BitVec.eq_of_getLsbD_eq
    intro j hj
    simp only [BitVec.getLsbD_and, hmask j hj, BitVec.getLsbD_zero]
    by_cases h8 : 8 ≤ j
    · have hbit := congrArg (fun y => y.getLsbD (j - 8)) h
      have hlt : j - 8 < 8 := by omega
      have hadd : 8 + (j - 8) = j := by omega
      simpa [BitVec.getLsbD_extractLsb', hlt, hadd, h8] using hbit
    · simp [h8]

/-- The high byte is 0 exactly if the word is below 256. -/
theorem extractLsb'_high_eq_zero_iff (x : Word) : x.extractLsb' 8 8 = 0#8 ↔ x.toNat < 256 := by
  have hx := x.isLt
  rw [← BitVec.toNat_inj, BitVec.extractLsb'_toNat, Nat.shiftRight_eq_div_pow, BitVec.toNat_ofNat]
  omega

/-- A mask that leaves the bits below k free selects the words whose highest bit is k. -/
theorem and_shiftLeft_allOnes_iff (x : Word) (k : Nat) (hk : k < 8) :
    x &&& (BitVec.allOnes 16 <<< k) = (BitVec.ofNat 8 (2 ^ k)).setWidth 16 ↔ x.toNat / 2 ^ k = 1 := by
  have hx := x.isLt
  rw [← BitVec.shiftLeft_ushiftRight, ← BitVec.toNat_inj]
  simp only [BitVec.toNat_shiftLeft, BitVec.toNat_ushiftRight, BitVec.toNat_setWidth, BitVec.toNat_ofNat,
    Nat.shiftRight_eq_div_pow, Nat.shiftLeft_eq]
  interval_cases k <;> omega

/-! ## Blocks of rows -/

/-- The mnemonics of the rows of a block that a word selects. -/
def selected (rows : List OpRow) (e : EventWord) : List String :=
  (rows.filter (fun r => r.selects e)).map OpRow.mnemonic

theorem selected_append (l r : List OpRow) (e : EventWord) :
    selected (l ++ r) e = selected l e ++ selected r e := by
  simp [selected]

theorem selected_flatMap {α : Type} (l : List α) (g : α → List OpRow) (e : EventWord) :
    selected (l.flatMap g) e = l.flatMap (fun p => selected (g p) e) := by
  simp [selected, List.filter_flatMap, List.map_flatMap]

/-- A block of one row. -/
theorem selected_singleton (r : OpRow) (e : EventWord) :
    selected [r] e = if r.selects e = true then [r.mnemonic] else [] := by
  unfold selected
  by_cases h : r.selects e = true <;> simp [h]

/-- A block of rows made from the members of a list, one row for each. -/
theorem selected_map {α : Type} (l : List α) (g : α → OpRow) (e : EventWord) :
    selected (l.map g) e = (l.filter (fun p => (g p).selects e)).map (fun p => (g p).mnemonic) := by
  simp [selected, List.filter_map, Function.comp_def]

/-- The rows of a read and of a write select together what each of them does, by the direction of the word. -/
theorem selected_pair (r w : OpRow) (e : EventWord) :
    selected [r, w] e = selected [r] e ++ selected [w] e := selected_append [r] [w] e

/-! ## The DSP rows -/

theorem mem_dspAddrs (a : Word) : a ∈ dspAddrs ↔ inWindow a = true := by
  simp only [dspAddrs, List.mem_map, List.mem_range, inWindow_iff, dspCount, Layout.dspBase]
  constructor
  · rintro ⟨k, hk, rfl⟩
    bv_omega
  · intro h
    exact ⟨a.toNat - 0xffc0, by bv_omega, by bv_omega⟩

theorem nodup_dspAddrs : dspAddrs.Nodup := by decide

/-- The one address of the window that is a. -/
theorem filter_dspAddrs (a : Word) : dspAddrs.filter (fun b => b == a) = if inWindow a then [a] else [] := by
  rw [List.filter_beq]
  by_cases ha : inWindow a = true
  · rw [List.count_eq_one_of_mem nodup_dspAddrs ((mem_dspAddrs a).mpr ha), if_pos ha, List.replicate_one]
  · rw [List.count_eq_zero_of_not_mem (mt (mem_dspAddrs a).mp ha), if_neg ha, List.replicate_zero]

/-- The name of an address of the table is that of its read and of its write event. -/
theorem dspRowName_spec (a w : Word) :
    "DR." ++ dspRowName a = (decodeDspRead a).mnemonic ∧ "DW." ++ dspRowName a = (decodeDspWrite a w).mnemonic := by
  unfold decodeDspRead decodeDspWrite
  iterate 7 (split; (next h => subst h; exact ⟨rfl, rfl⟩))
  next h0 h1 h2 h3 h4 h5 h6 =>
    have hname : dspRowName a = "P" := by
      simp only [dspRowName, List.lookup_cons, beq_false_of_ne h0, beq_false_of_ne h1, beq_false_of_ne h2,
        beq_false_of_ne h3, beq_false_of_ne h4, beq_false_of_ne h5, beq_false_of_ne h6]
      rfl
    rw [hname]
    exact ⟨rfl, rfl⟩

theorem selects_dspReadRow (n : String) (a : Word) (e : EventWord) :
    (⟨n, encodeDspRead a, fullMask⟩ : OpRow).selects e = true ↔
      evAgent e = Layout.agentDsp ∧ evWrite e = false ∧ evAddr e = a ∧ evData e = 0 := by
  have h := selects_iff n Layout.agentDsp false a 0 0xffff#16 0xffff#16 e
  rwa [and_ffff, and_ffff] at h

theorem selects_dspWriteRow (n : String) (a : Word) (e : EventWord) :
    (⟨n, encodeDspWrite a 0, dspWriteMask⟩ : OpRow).selects e = true ↔
      evAgent e = Layout.agentDsp ∧ evWrite e = true ∧ evAddr e = a := by
  have h := selects_iff n Layout.agentDsp true a 0 0xffff#16 0x0000#16 e
  rw [and_ffff] at h
  exact h.trans ⟨fun ⟨hag, hwr, haddr, _⟩ => ⟨hag, hwr, haddr⟩,
    fun ⟨hag, hwr, haddr⟩ => ⟨hag, hwr, haddr, BitVec.and_zero⟩⟩

/-- The DSP read rows select the DSP reads of the window, each by its mnemonic. -/
theorem selected_dspReadRows (e : EventWord) : selected dspReadRows e =
    if evAgent e = Layout.agentDsp ∧ evWrite e = false ∧ inWindow (evAddr e) = true ∧ evData e = 0 then
      [(decodeDspRead (evAddr e)).mnemonic] else [] := by
  have hrow (a : Word) : OpRow.selects ⟨"DR." ++ dspRowName a, encodeDspRead a, fullMask⟩ e =
      (decide (evAgent e = Layout.agentDsp ∧ evWrite e = false ∧ evData e = 0) && a == evAddr e) := by
    rw [Bool.eq_iff_iff, selects_dspReadRow]
    simp only [Bool.and_eq_true, decide_eq_true_eq, beq_iff_eq, eq_comm (a := evAddr e)]
    tauto
  rw [dspReadRows, selected_map]
  simp only [hrow]
  by_cases hcond : evAgent e = Layout.agentDsp ∧ evWrite e = false ∧ evData e = 0
  · obtain ⟨hag, hwr, hdata⟩ := hcond
    simp only [hag, hwr, hdata, and_self, decide_true, Bool.true_and, true_and, and_true, filter_dspAddrs]
    split
    · exact congrArg (fun m => [m]) (dspRowName_spec (evAddr e) 0).1
    · rfl
  · rw [if_neg (by tauto), decide_eq_false hcond]
    simp

/-- The DSP write rows select the DSP writes of the window, each by its mnemonic, whatever the data. -/
theorem selected_dspWriteRows (e : EventWord) : selected dspWriteRows e =
    if evAgent e = Layout.agentDsp ∧ evWrite e = true ∧ inWindow (evAddr e) = true then
      [(decodeDspWrite (evAddr e) (evData e)).mnemonic] else [] := by
  have hrow (a : Word) : OpRow.selects ⟨"DW." ++ dspRowName a, encodeDspWrite a 0, dspWriteMask⟩ e =
      (decide (evAgent e = Layout.agentDsp ∧ evWrite e = true) && a == evAddr e) := by
    rw [Bool.eq_iff_iff, selects_dspWriteRow]
    simp only [Bool.and_eq_true, decide_eq_true_eq, beq_iff_eq, eq_comm (a := evAddr e)]
    tauto
  rw [dspWriteRows, selected_map]
  simp only [hrow]
  by_cases hcond : evAgent e = Layout.agentDsp ∧ evWrite e = true
  · obtain ⟨hag, hwr⟩ := hcond
    simp only [hag, hwr, and_self, decide_true, Bool.true_and, true_and, filter_dspAddrs]
    split
    · exact congrArg (fun m => [m]) (dspRowName_spec (evAddr e) (evData e)).2
    · rfl
  · rw [if_neg (by tauto), decide_eq_false hcond]
    simp

/-! ## The host rows -/

/-- One column of the host table: the named offsets, then the parts of the invalid range (R73). -/
def hostColumn (name : Byte × String × String → String) (invalid : String) (x : Word) : List String :=
  hostNames.flatMap (fun p => if x = p.1.setWidth 16 then [name p] else []) ++
    hostInvalidBits.flatMap (fun k => if x.toNat / 2 ^ k = 1 then [invalid] else [])

/-- The parts of the invalid range are disjoint and cover 0x08 to 0xff. -/
theorem flatMap_hostInvalidBits (n : Nat) (c : String) (h8 : 8 ≤ n) :
    hostInvalidBits.flatMap (fun k => if n / 2 ^ k = 1 then [c] else []) = if n < 256 then [c] else [] := by
  have h3 : n / 2 ^ 3 = 1 ↔ n < 16 := by omega
  have h4 : n / 2 ^ 4 = 1 ↔ 16 ≤ n ∧ n < 32 := by omega
  have h5 : n / 2 ^ 5 = 1 ↔ 32 ≤ n ∧ n < 64 := by omega
  have h6 : n / 2 ^ 6 = 1 ↔ 64 ≤ n ∧ n < 128 := by omega
  have h7 : n / 2 ^ 7 = 1 ↔ 128 ≤ n ∧ n < 256 := by omega
  rw [show hostInvalidBits = [3, 4, 5, 6, 7] from rfl]
  simp only [List.flatMap_cons, List.flatMap_nil, h3, h4, h5, h6, h7]
  by_cases h16 : n < 16
  · simp [show n < 256 by omega, show ¬ 16 ≤ n by omega, show ¬ 32 ≤ n by omega, show ¬ 64 ≤ n by omega,
      show ¬ 128 ≤ n by omega, h16]
  by_cases h32 : n < 32
  · simp [show n < 256 by omega, show 16 ≤ n by omega, show ¬ 32 ≤ n by omega, show ¬ 64 ≤ n by omega,
      show ¬ 128 ≤ n by omega, h16, h32]
  by_cases h64 : n < 64
  · simp [show n < 256 by omega, show 32 ≤ n by omega, show ¬ 64 ≤ n by omega,
      show ¬ 128 ≤ n by omega, h16, h32, h64]
  by_cases h128 : n < 128
  · simp [show n < 256 by omega, show 64 ≤ n by omega, show ¬ 128 ≤ n by omega, h16, h32, h64, h128]
  · simp [show 128 ≤ n by omega, h16, h32, h64, h128]

/-- A column lists exactly one mnemonic for each offset, and none for an address that is no offset. -/
theorem hostColumn_eq (name : Byte × String × String → String) (invalid : String) (x : Word) (f : Byte → String)
    (hname : ∀ p ∈ hostNames, f p.1 = name p) (hinvalid : ∀ o, isInvalidOffset o = true → f o = invalid) :
    hostColumn name invalid x = if x.extractLsb' 8 8 = 0#8 then [f (x.extractLsb' 0 8)] else [] := by
  by_cases hx : x.toNat < 8
  · have hcases : x = 0#16 ∨ x = 1#16 ∨ x = 2#16 ∨ x = 3#16 ∨ x = 4#16 ∨ x = 5#16 ∨ x = 6#16 ∨ x = 7#16 := by bv_omega
    have hbits : hostInvalidBits = [3, 4, 5, 6, 7] := rfl
    simp only [hostNames, List.forall_mem_cons] at hname
    rcases hcases with rfl | rfl | rfl | rfl | rfl | rfl | rfl | rfl <;>
      simp [hostColumn, hbits, hostNames, hname]
  · have hne (k : Nat) (hk : k < 8) : x ≠ BitVec.ofNat 16 k := by
      rintro rfl
      apply hx
      simp [Nat.mod_eq_of_lt (show k < 65536 by omega), hk]
    have hnamed : hostNames.flatMap (fun p => if x = p.1.setWidth 16 then [name p] else []) = [] := by
      simp [hostNames, hne]
    rw [hostColumn, hnamed, List.nil_append, flatMap_hostInvalidBits _ _ (by omega)]
    by_cases h256 : x.toNat < 256
    · have hlow : isInvalidOffset (x.extractLsb' 0 8) = true := by
        rw [isInvalidOffset_iff, BitVec.extractLsb'_toNat]
        simp only [Nat.shiftRight_zero]
        omega
      rw [if_pos h256, if_pos ((extractLsb'_high_eq_zero_iff x).mpr h256), hinvalid _ hlow]
    · rw [if_neg h256, if_neg (mt (extractLsb'_high_eq_zero_iff x).mp h256)]

theorem selects_hostReadRow (n : String) (o : Byte) (e : EventWord) :
    (⟨n, encodeHostRead o, fullMask⟩ : OpRow).selects e = true ↔
      evAgent e = Layout.agentHost ∧ evWrite e = false ∧ evAddr e = o.setWidth 16 ∧ evData e = 0 := by
  have h := selects_iff n Layout.agentHost false (o.setWidth 16) 0 0xffff#16 0xffff#16 e
  rwa [and_ffff, and_ffff] at h

theorem selects_hostWriteRow (n : String) (o : Byte) (e : EventWord) :
    (⟨n, encodeHostWrite o 0, hostWriteMask⟩ : OpRow).selects e = true ↔
      evAgent e = Layout.agentHost ∧ evWrite e = true ∧ evAddr e = o.setWidth 16 ∧
        (evData e).extractLsb' 8 8 = 0#8 := by
  have h := selects_iff n Layout.agentHost true (o.setWidth 16) 0 0xffff#16 0xff00#16 e
  rw [and_ffff] at h
  rw [← and_ff00_eq_zero_iff]
  exact h

/-- The masks of the range rows, by their fields. -/
theorem rangeMasks_eq (k : Nat) (hk : k ∈ hostInvalidBits) :
    fullMask &&& ~~~(freeOffsetBits k) = eventWord 0b11#2 true (BitVec.allOnes 16 <<< k) 0xffff#16 ∧
    hostWriteMask &&& ~~~(freeOffsetBits k) = eventWord 0b11#2 true (BitVec.allOnes 16 <<< k) 0xff00#16 := by
  revert k
  decide

theorem selects_hostReadRange (n : String) (k : Nat) (hk : k ∈ hostInvalidBits) (e : EventWord) :
    (⟨n, encodeHostRead (BitVec.ofNat 8 (2 ^ k)), fullMask &&& ~~~(freeOffsetBits k)⟩ : OpRow).selects e = true ↔
      evAgent e = Layout.agentHost ∧ evWrite e = false ∧ (evAddr e).toNat / 2 ^ k = 1 ∧ evData e = 0 := by
  have hk8 : k < 8 := by revert k; decide
  rw [(rangeMasks_eq k hk).1, ← and_shiftLeft_allOnes_iff _ k hk8]
  have h := selects_iff n Layout.agentHost false ((BitVec.ofNat 8 (2 ^ k)).setWidth 16) 0 (BitVec.allOnes 16 <<< k)
    0xffff#16 e
  rwa [and_ffff] at h

theorem selects_hostWriteRange (n : String) (k : Nat) (hk : k ∈ hostInvalidBits) (e : EventWord) :
    (⟨n, encodeHostWrite (BitVec.ofNat 8 (2 ^ k)) 0, hostWriteMask &&& ~~~(freeOffsetBits k)⟩ : OpRow).selects e =
        true ↔
      evAgent e = Layout.agentHost ∧ evWrite e = true ∧ (evAddr e).toNat / 2 ^ k = 1 ∧
        (evData e).extractLsb' 8 8 = 0#8 := by
  have hk8 : k < 8 := by revert k; decide
  rw [(rangeMasks_eq k hk).2, ← and_shiftLeft_allOnes_iff _ k hk8, ← and_ff00_eq_zero_iff]
  exact selects_iff n Layout.agentHost true ((BitVec.ofNat 8 (2 ^ k)).setWidth 16) 0 (BitVec.allOnes 16 <<< k)
    0xff00#16 e

/-- The host rows a host read selects. -/
theorem selected_hostRows_read (e : EventWord) (hag : evAgent e = Layout.agentHost) (hwr : evWrite e = false)
    (hdata : evData e = 0) :
    selected (hostRows ++ hostInvalidRows) e = hostColumn (fun p => "HR." ++ p.2.1) "HR.INVALID" (evAddr e) := by
  rw [selected_append, hostRows, hostInvalidRows, selected_flatMap, selected_flatMap, hostColumn]
  congr 1
  · simp only [selected_pair, selected_singleton, selects_hostReadRow, selects_hostWriteRow]
    simp [hag, hwr, hdata]
  · refine List.flatMap_congr fun k hk => ?_
    simp only [selected_pair, selected_singleton, selects_hostReadRange _ k hk, selects_hostWriteRange _ k hk]
    simp [hag, hwr, hdata]

/-- The host rows a host write selects. -/
theorem selected_hostRows_write (e : EventWord) (hag : evAgent e = Layout.agentHost) (hwr : evWrite e = true)
    (hdata : (evData e).extractLsb' 8 8 = 0#8) :
    selected (hostRows ++ hostInvalidRows) e = hostColumn (fun p => "HW." ++ p.2.2) "HW.INVALID" (evAddr e) := by
  rw [selected_append, hostRows, hostInvalidRows, selected_flatMap, selected_flatMap, hostColumn]
  congr 1
  · simp only [selected_pair, selected_singleton, selects_hostReadRow, selects_hostWriteRow]
    simp [hag, hwr, hdata]
  · refine List.flatMap_congr fun k hk => ?_
    simp only [selected_pair, selected_singleton, selects_hostReadRange _ k hk, selects_hostWriteRange _ k hk]
    simp [hag, hwr, hdata]

/-- A host row selects only words of agent HOST, with no data above a byte, and none at all in a read. -/
theorem host_of_selects {r : OpRow} {e : EventWord} (hr : r ∈ hostRows ++ hostInvalidRows)
    (h : r.selects e = true) : evAgent e = Layout.agentHost ∧ (evWrite e = false → evData e = 0) ∧
      (evWrite e = true → (evData e).extractLsb' 8 8 = 0#8) := by
  simp only [List.mem_append, hostRows, hostInvalidRows, List.mem_flatMap, List.mem_cons, List.not_mem_nil,
    or_false] at hr
  rcases hr with ⟨p, _, rfl | rfl⟩ | ⟨k, hk, rfl | rfl⟩
  · obtain ⟨hag, hwr, _, hdata⟩ := (selects_hostReadRow _ _ e).mp h
    simp [hag, hwr, hdata]
  · obtain ⟨hag, hwr, _, hdata⟩ := (selects_hostWriteRow _ _ e).mp h
    simp [hag, hwr, hdata]
  · obtain ⟨hag, hwr, _, hdata⟩ := (selects_hostReadRange _ k hk e).mp h
    simp [hag, hwr, hdata]
  · obtain ⟨hag, hwr, _, hdata⟩ := (selects_hostWriteRange _ k hk e).mp h
    simp [hag, hwr, hdata]

/-- The host rows select the host events, each by its mnemonic, whatever the data of a write. -/
theorem selected_hostRows (e : EventWord) : selected (hostRows ++ hostInvalidRows) e =
    if evAgent e = Layout.agentHost ∧ (evAddr e).extractLsb' 8 8 = 0#8 ∧ (evWrite e = false → evData e = 0) ∧
        (evWrite e = true → (evData e).extractLsb' 8 8 = 0#8) then
      [if evWrite e then (decodeHostWrite (evOffset e) (evHostData e)).mnemonic
       else (decodeHostRead (evOffset e)).mnemonic]
    else [] := by
  by_cases hcond : evAgent e = Layout.agentHost ∧ (evWrite e = false → evData e = 0) ∧
      (evWrite e = true → (evData e).extractLsb' 8 8 = 0#8)
  · obtain ⟨hag, hread, hwrite⟩ := hcond
    cases hwr : evWrite e
    · rw [selected_hostRows_read e hag hwr (hread hwr),
        hostColumn_eq _ _ _ (fun o => (decodeHostRead o).mnemonic) (by decide)
          (fun o ho => by rw [decodeHostRead_of_invalid o ho]; rfl)]
      simp [hag, hread hwr, evOffset]
    · rw [selected_hostRows_write e hag hwr (hwrite hwr),
        hostColumn_eq _ _ _ (fun o => (decodeHostWrite o (evHostData e)).mnemonic)
          (by simp only [hostNames, List.forall_mem_cons]; exact ⟨rfl, rfl, rfl, rfl, rfl, rfl, rfl, rfl, by simp⟩)
          (fun o ho => by rw [decodeHostWrite_of_invalid o _ ho]; rfl)]
      simp [hag, hwrite hwr, evOffset]
  · rw [if_neg (by tauto)]
    simp only [selected, List.map_eq_nil_iff, List.filter_eq_nil_iff]
    exact fun r hr hsel => hcond (host_of_selects hr hsel)

/-! ## The whole table -/

/-- The RESET row selects the one SYSTEM word. -/
theorem selected_resetRow (e : EventWord) : selected [⟨"RESET", encode .reset, fullMask⟩] e =
    if evAgent e = Layout.agentSystem ∧ evWrite e = false ∧ evAddr e = 0 ∧ evData e = 0 then ["RESET"] else [] := by
  have hsel := selects_iff "RESET" Layout.agentSystem false 0 0 0xffff#16 0xffff#16 e
  rw [and_ffff, and_ffff] at hsel
  rw [selected_singleton]
  exact if_congr hsel rfl rfl

theorem selected_opcodeRows (e : EventWord) : selected opcodeRows e =
    selected (hostRows ++ hostInvalidRows) e ++ selected dspReadRows e ++ selected dspWriteRows e ++
      selected [⟨"RESET", encode .reset, fullMask⟩] e := by
  simp only [opcodeRows, selected_append]

/-- A word selects exactly the row of the event it spells. -/
theorem selected_of_spells {e : EventWord} {i : Instr} (h : Spells e i) : selected opcodeRows e = [i.mnemonic] := by
  rw [selected_opcodeRows, selected_hostRows, selected_dspReadRows, selected_dspWriteRows, selected_resetRow]
  cases h with
  | hostRead o => simp [encodeHostRead, evOffset, bytes_setWidth]
  | hostWrite o b => simp [encodeHostWrite, evOffset, evHostData, bytes_setWidth]
  | dspRead a ha => simp [encodeDspRead, ha]
  | dspWrite a w ha => simp [encodeDspWrite, ha]
  | reset => rfl

/-- A word that is no event selects no row: each block's condition is that the word is an event. -/
theorem selected_of_not_isEvent {e : EventWord} (h : ¬ isEvent e = true) : selected opcodeRows e = [] := by
  rw [selected_opcodeRows, selected_hostRows, selected_dspReadRows, selected_dspWriteRows, selected_resetRow]
  rw [← exists_spells_iff_isEvent] at h
  rw [if_neg ?host, if_neg ?dspRead, if_neg ?dspWrite, if_neg ?reset]
  case host =>
    rintro ⟨hag, haddr, hread, hwrite⟩
    refine h (spells_of_host hag haddr ?_ hread)
    cases hwr : evWrite e
    · rw [hread hwr]
      rfl
    · exact hwrite hwr
  case dspRead => exact fun ⟨hag, _, haddr, hdata⟩ => h (spells_of_dsp hag haddr fun _ => hdata)
  case dspWrite => exact fun ⟨hag, hwr, haddr⟩ => h (spells_of_dsp hag haddr (by simp [hwr]))
  case reset => exact fun ⟨hag, hwr, haddr, hdata⟩ => h (spells_of_system hag hwr haddr hdata)
  rfl

/-! ## Data selects nothing -/

theorem mnemonic_decodeHostWrite (o b b' : Byte) :
    (decodeHostWrite o b).mnemonic = (decodeHostWrite o b').mnemonic := by
  unfold decodeHostWrite
  iterate 8 (split; · rfl)
  rfl

theorem mnemonic_decodeDspWrite (a w w' : Word) :
    (decodeDspWrite a w).mnemonic = (decodeDspWrite a w').mnemonic := by
  unfold decodeDspWrite
  iterate 7 (split; · rfl)
  rfl

/-- The event of a word and that of the word with its data cleared have one mnemonic. -/
theorem mnemonic_of_cleared_data {e : EventWord} {i : Instr} (h : Spells e i) :
    ∃ j, Spells (eventWord (evAgent e) (evWrite e) (evAddr e) 0) j ∧ j.mnemonic = i.mnemonic := by
  cases h with
  | hostRead o => exact ⟨_, by simpa [encodeHostRead] using Spells.hostRead o, rfl⟩
  | hostWrite o b =>
    exact ⟨_, by simpa [encodeHostWrite] using Spells.hostWrite o 0, mnemonic_decodeHostWrite o 0 b⟩
  | dspRead a ha => exact ⟨_, by simpa [encodeDspRead] using Spells.dspRead a ha, rfl⟩
  | dspWrite a w ha =>
    exact ⟨_, by simpa [encodeDspWrite] using Spells.dspWrite a 0 ha, mnemonic_decodeDspWrite a 0 w⟩
  | reset => exact ⟨_, by simpa [encode] using Spells.reset, rfl⟩

/-- A word spells one event only. -/
theorem spells_unique {e : EventWord} {i j : Instr} (hi : Spells e i) (hj : Spells e j) : i = j := by
  have hij : Except.ok (ε := NotEvent) i = .ok j := (decode_of_spells hi).symm.trans (decode_of_spells hj)
  cases hij
  rfl

/-- The agent, direction and address of a word are its bits 34 to 16. -/
theorem fields_of_extractLsb' {e e' : EventWord} (h : e.extractLsb' 16 19 = e'.extractLsb' 16 19) :
    evAgent e = evAgent e' ∧ evWrite e = evWrite e' ∧ evAddr e = evAddr e' := by
  have hbit (j : Nat) (hj : j < 19) : e.getLsbD (16 + j) = e'.getLsbD (16 + j) := by
    simpa [BitVec.getLsbD_extractLsb', hj] using congrArg (fun y => y.getLsbD j) h
  refine ⟨?agent, hbit 16 (by omega), ?addr⟩
  case agent =>
    apply BitVec.eq_of_getLsbD_eq
    intro j hj
    have hb := hbit (17 + j) (by omega)
    rw [← Nat.add_assoc] at hb
    simpa [evAgent, BitVec.getLsbD_extractLsb', hj] using hb
  case addr =>
    apply BitVec.eq_of_getLsbD_eq
    intro j hj
    simpa [evAddr, BitVec.getLsbD_extractLsb', hj] using hbit j (by omega)

/-- Settles O4: the blocks of the table select the shapes of event words one by one, and clearing the data of a word
keeps its mnemonic. -/
theorem eventSelectsExactlyItsRow : Obligations.EventSelectsExactlyItsRow := by
  constructor
  · intro e
    cases hdec : decode e with
    | ok i => exact selected_of_spells ((decode_eq_ok_iff e i).mp hdec)
    | error why =>
      refine selected_of_not_isEvent fun hev => ?_
      obtain ⟨i, hi⟩ := (exists_spells_iff_isEvent e).mpr hev
      cases hdec.symm.trans (decode_of_spells hi)
  · intro e e' i i' hi hi' hfields
    obtain ⟨hag, hwr, haddr⟩ := fields_of_extractLsb' hfields
    obtain ⟨j, hj, hji⟩ := mnemonic_of_cleared_data ((decode_eq_ok_iff e i).mp hi)
    obtain ⟨j', hj', hji'⟩ := mnemonic_of_cleared_data ((decode_eq_ok_iff e' i').mp hi')
    rw [hag, hwr, haddr] at hj
    rw [← hji, ← hji', spells_unique hj hj']

end Sys2Proof
end

section
/-! SUPPORT. The reset table of 10_state.md R34 and the invariants it meets, for the state after reset and after every
RESET event at once. -/

namespace Sys2Proof.Machine

/-! ## Values under a valid mask -/

/-- A bit after a one-bit store, for a bit of the register (`getLsbD_putBit` in the spelling simp prefers). -/
@[simp] theorem getElem_putBit {w : Nat} (r : BitVec w) (k : Nat) (b : Bool) (j : Nat) (hj : j < w) :
    (putBit r k b)[j] = if j = k then b else r[j] := by
  rw [← BitVec.getLsbD_eq_getElem, getLsbD_putBit, ← BitVec.getLsbD_eq_getElem]
  simp [hj]

/-- A value is under a mask exactly if each of its bits outside the mask is 0 (40_register_file.md R82). -/
theorem outside_eq_zero_iff {w : Nat} (m v : BitVec w) :
    outside m v = 0 ↔ ∀ j, m.getLsbD j = false → v.getLsbD j = false := by
  constructor
  · intro h j hm
    by_cases hj : j < w
    · have hbit : (outside m v).getLsbD j = false := by rw [h]; exact BitVec.getLsbD_zero
      simpa only [outside, BitVec.getLsbD_and, BitVec.getLsbD_not, hj, hm, decide_true, Bool.not_false, Bool.and_true]
        using hbit
    · exact BitVec.getLsbD_of_ge _ _ (Nat.le_of_not_lt hj)
  · intro h
    apply BitVec.eq_of_getLsbD_eq
    intro j hj
    cases hm : m.getLsbD j
    · simp [outside, h j hm]
    · simp [outside, hm]

/-- Storing a field of the mask leaves the bits outside it. -/
theorem outside_putField {w n : Nat} (m r : BitVec w) (lo : Nat) (x : BitVec n)
    (hm : ∀ j, lo ≤ j → j < lo + n → m.getLsbD j = true) : outside m (putField r lo x) = outside m r := by
  apply BitVec.eq_of_getLsbD_eq
  intro j _
  simp only [outside, BitVec.getLsbD_and, BitVec.getLsbD_not, getLsbD_putField]
  split
  · next hin =>
    obtain ⟨_, hlo, hhi⟩ := hin
    simp [hm j hlo hhi]
  · rfl

/-- Storing a bit of the mask leaves the bits outside it. -/
theorem outside_putBit {w : Nat} (m r : BitVec w) (k : Nat) (b : Bool) (hm : m.getLsbD k = true) :
    outside m (putBit r k b) = outside m r :=
  outside_putField m r k _ fun j hlo hhi => by rwa [show j = k by omega]

/-- A masked value is under the mask. -/
theorem outside_and_self {w : Nat} (m v : BitVec w) : outside m (v &&& m) = 0 := by
  rw [outside_eq_zero_iff]
  intro j hj
  simp [hj]

/-- Every value is under the full mask. -/
theorem outside_allOnes {w : Nat} (v : BitVec w) : outside (BitVec.allOnes w) v = 0 := by
  simp [outside]

/-! ## The reset table -/

/-- The registers a rule reads hold the reset values of the machine's configuration (R34). -/
structure AtReset (s : State) : Prop where
  icr : s.icr = 0x00#8
  cvr : s.cvr = putField 0x00#8 0 s.cfg.resetHv
  isr : s.isr = 0x02#8
  ivr : s.ivr = s.cfg.resetIvr
  hcr : s.hcr = 0x0000#16
  hsr : s.hsr = 0x0002#16
  ipr : s.ipr = s.cfg.resetIpr
  p : s.p = s.cfg.resetP
  bootMode : s.bootMode = s.cfg.bootAtReset
  bootOffset : s.bootOffset = 0

/-- RESET stores the table (R240). -/
theorem atReset_resetRegisters (s : State) : AtReset (resetRegisters s) :=
  ⟨rfl, resetCVR_eq s.cfg, resetISR_eq s.cfg, rfl, rfl, resetHSR_eq s.cfg, rfl, rfl, rfl, rfl⟩

/-- The state after reset holds the table. -/
theorem atReset_reset : AtReset State.reset :=
  ⟨rfl, resetCVR_eq _, resetISR_eq _, rfl, rfl, resetHSR_eq _, rfl, rfl, rfl, rfl⟩

/-- HV is the low field of CVR (30_encoding.md R64). -/
theorem extractLsb'_putField_hv (r : Byte) (x : BitVec hvWidth) : (putField r 0 x).extractLsb' 0 5 = x := by
  apply BitVec.eq_of_getLsbD_eq
  intro j hj
  rw [BitVec.getLsbD_extractLsb', getLsbD_putField, if_pos (by simp; omega)]
  simp [hj]

/-- A store of HV leaves HC. -/
theorem getLsbD_putField_hv (r : Byte) (x : BitVec hvWidth) : (putField r 0 x).getLsbD 7 = r.getLsbD 7 := by
  rw [getLsbD_putField, if_neg (by simp)]

/-- The bits of HV are valid bits of CVR. -/
theorem outside_putField_hv (r : Byte) (x : BitVec hvWidth) :
    outside Layout.maskCVR (putField r 0 x) = outside Layout.maskCVR r := by
  have hfield : ∀ j < 5, (0x9f#8).getLsbD j = true := by decide
  exact outside_putField _ r 0 x fun j _ hj => hfield j (by simpa using hj)

namespace AtReset

variable {s : State}

theorem mirrorInv (h : AtReset s) : MirrorInv s := by
  simp [MirrorInv, h.icr, h.isr, h.hcr, h.hsr]

theorem handshakeInv (h : AtReset s) : HandshakeInv s := by
  simp [HandshakeInv, State.txde, State.hrdf, State.rxdf, State.htde, h.isr, h.hsr]

theorem commandInv (h : AtReset s) : CommandInv s := by
  have hcp : s.hcp = false := by simp [State.hcp, h.hsr]
  have hhc : s.hc = false := by rw [State.hc, h.cvr]; exact getLsbD_putField_hv _ _
  exact hcp.trans hhc.symm

theorem bootInv (h : AtReset s) : BootInv s := by
  simp [BootInv, h.bootOffset]

theorem discardInv (h : AtReset s) : DiscardInv s := by
  intro a _ _
  rw [readP, h.p]

theorem reservedInv (h : AtReset s) (hcfg : CfgOk s.cfg) : ReservedInv s := by
  refine ⟨by rw [h.icr]; rfl, ?_, by rw [h.isr]; rfl, outside_allOnes s.ivr, by rw [h.hcr]; rfl, by rw [h.hsr]; rfl,
    outside_allOnes s.ipr, ?_⟩
  · rw [h.cvr]
    exact outside_putField_hv _ _
  · intro i
    rw [readP, h.p]
    exact hcfg i

end AtReset

end Sys2Proof.Machine
end

section
/-! SUPPORT. What an event can do to the four path flags (10_state.md R32, 42_handshake_engine.md section 4), said
once, and the claims about them. -/

namespace Sys2Proof.Machine

/-- The four path flags (10_state.md R22). -/
structure PathFlags where
  txde : Bool
  hrdf : Bool
  htde : Bool
  rxdf : Bool

/-- The path flags of a state. -/
def State.flags (s : State) : PathFlags := ⟨s.txde, s.hrdf, s.htde, s.rxdf⟩

/-- The change an event i from s to t makes to the path flags: none, one flag cleared by its own side's access, or both
flags of a path set by its transfer, which leaves the reader's data equal to the writer's (R32). -/
inductive FlagChange (s : State) : Instr → State → Prop
  | same {i : Instr} {t : State} (h : t.flags = s.flags) : FlagChange s i t
  | hostTakes {t : State} (hrxdf : s.rxdf = true) (hhtde : s.htde = true)
      (h : t.flags = { s.flags with rxdf := false }) : FlagChange s .hrRxl t
  | dspTakes {t : State} (hhrdf : s.hrdf = true) (htxde : s.txde = true)
      (h : t.flags = { s.flags with hrdf := false }) : FlagChange s .drHtrx t
  | hostStages {b : Byte} {t : State} (htxde : s.txde = true) (hhrdf : s.hrdf = true)
      (h : t.flags = { s.flags with txde := false }) : FlagChange s (.hwTxl b) t
  | dspStages {w : Word} {t : State} (hrxdf : s.rxdf = true)
      (h : t.flags = { s.flags with htde := false }) : FlagChange s (.dwHtrx w) t
  | toDsp {i : Instr} {t : State} (h : t.flags = { s.flags with txde := true, hrdf := true })
      (hdata : t.hrx = joinBytes t.txh t.txl) : FlagChange s i t
  | toHost {i : Instr} {t : State} (h : t.flags = { s.flags with htde := true, rxdf := true })
      (hdata : t.htx = joinBytes t.rxh t.rxl) : FlagChange s i t

/-- The path flags of a state are bits of ISR and HSR (30_encoding.md R65, R68). -/
theorem State.flags_eq (s : State) :
    s.flags = ⟨s.isr.getLsbD 1, s.hsr.getLsbD 0, s.hsr.getLsbD 1, s.isr.getLsbD 0⟩ := rfl

/-- Every completed event but RESET makes one of the changes. -/
theorem flagChange_of_effect {i : Instr} {s t : State} (h : Effect s i t) (hi : i ≠ .reset) : FlagChange s i t := by
  cases h with
  | readOnly | discarded | txhDropped | txhStored | txlDropped | bootHigh | bootLow | abort | ivr | ipr | pbc | bcr
  | pcd | plain => exact .same rfl
  | abortLatching | icr | cvr | hcr =>
    refine .same ?_
    simp only [State.flags_eq, getLsbD_putBit]
    rfl
  | consumeRx hr hh =>
    refine .hostTakes hr hh ?_
    simp only [State.flags_eq, getLsbD_putBit]
    rfl
  | consumeHrx hr ht =>
    refine .dspTakes hr ht ?_
    simp only [State.flags_eq, getLsbD_putBit]
    rfl
  | txlStaged b hm ht hr =>
    refine .hostStages ht hr ?_
    simp only [State.flags_eq, getLsbD_putBit]
    rfl
  | htxStaged w hr =>
    refine .dspStages hr ?_
    simp only [State.flags_eq, getLsbD_putBit]
    rfl
  | consumeHrxTransfer | txlTransfer =>
    refine .toDsp ?_ rfl
    simp only [State.flags_eq, getLsbD_putBit]
    rfl
  | consumeRxTransfer | htxTransfer =>
    refine .toHost ?_ (joinBytes_highByte_lowByte _).symm
    simp only [State.flags_eq, getLsbD_putBit]
    rfl
  | reset => exact absurd rfl hi

/-- The change a completed event but RESET makes. -/
theorem flagChange_of_exec {i : Instr} {s t : State} (h : exec i s = .next t) (hi : i ≠ .reset) : FlagChange s i t :=
  flagChange_of_effect (effect_of_exec i s t h) hi

/-- The flags of the next state one by one. -/
theorem flags_eq_iff (s : State) (a b c d : Bool) :
    s.flags = ⟨a, b, c, d⟩ ↔ s.txde = a ∧ s.hrdf = b ∧ s.htde = c ∧ s.rxdf = d := by
  simp [State.flags]

/-! ## Stable paths -/

/-- No change leaves a path with both flags clear that was not so before (R29). -/
theorem handshakeInv_of_flagChange {i : Instr} {s t : State} (h : FlagChange s i t) (hs : HandshakeInv s) :
    HandshakeInv t := by
  unfold HandshakeInv at hs ⊢
  cases h with
  | same h => simpa [(flags_eq_iff t _ _ _ _).mp h, State.flags] using hs
  | hostTakes hrxdf hhtde h => simpa [(flags_eq_iff t _ _ _ _).mp h, State.flags, hhtde] using hs
  | dspTakes hhrdf htxde h => simpa [(flags_eq_iff t _ _ _ _).mp h, State.flags, htxde] using hs
  | hostStages htxde hhrdf h => simpa [(flags_eq_iff t _ _ _ _).mp h, State.flags, hhrdf] using hs
  | dspStages hrxdf h => simpa [(flags_eq_iff t _ _ _ _).mp h, State.flags, hrxdf] using hs
  | toDsp h _ =>
    obtain ⟨_, hdsp⟩ := hs
    simpa [(flags_eq_iff t _ _ _ _).mp h, State.flags] using hdsp
  | toHost h _ =>
    obtain ⟨hhost, _⟩ := hs
    simpa [(flags_eq_iff t _ _ _ _).mp h, State.flags] using hhost

/-- Every event keeps the paths stable, and RESET makes them so. -/
theorem handshakeInv_of_exec {i : Instr} {s t : State} (h : exec i s = .next t)
    (hs : i = .reset ∨ HandshakeInv s) : HandshakeInv t := by
  by_cases hi : i = .reset
  · subst hi
    cases h
    exact (atReset_resetRegisters s).handshakeInv
  · exact handshakeInv_of_flagChange (flagChange_of_exec h hi) (hs.resolve_left hi)

/-- Two flags not both clear are in one of three states. -/
theorem stable_cases (a b : Bool) (h : ¬(a = false ∧ b = false)) :
    (a, b) = (true, false) ∨ (a, b) = (true, true) ∨ (a, b) = (false, true) := by
  cases a <;> cases b <;> simp_all

/-- Settles O13: the three stable states are the ones HandshakeInv leaves. -/
theorem everyEventLeavesStablePaths : Obligations.EveryEventLeavesStablePaths := by
  intro i s t hs h
  obtain ⟨hhost, hdsp⟩ := handshakeInv_of_exec h hs
  exact ⟨stable_cases t.txde t.hrdf hhost, stable_cases t.htde t.rxdf fun ⟨hh, hr⟩ => hdsp ⟨hr, hh⟩⟩

/-! ## Set together, cleared alone -/

/-- Settles O16: read off the seven changes. -/
theorem flagsAreSetTogetherAndClearedAlone : Obligations.FlagsAreSetTogetherAndClearedAlone := by
  intro i s t hi h
  cases flagChange_of_exec h hi with
  | same h => simp [(flags_eq_iff t _ _ _ _).mp h]
  | hostTakes hr hh h => simp [(flags_eq_iff t _ _ _ _).mp h, State.flags]
  | dspTakes hr ht h => simp [(flags_eq_iff t _ _ _ _).mp h, State.flags]
  | hostStages ht hr h => simp [(flags_eq_iff t _ _ _ _).mp h, State.flags]
  | dspStages hr h => simp [(flags_eq_iff t _ _ _ _).mp h, State.flags]
  | toDsp h hdata => simp [(flags_eq_iff t _ _ _ _).mp h, State.flags, hdata, joinBytes]
  | toHost h hdata => simp [(flags_eq_iff t _ _ _ _).mp h, State.flags, hdata, joinBytes]

/-! ## Runs of events -/

/-- A run that completes completes its first event. -/
theorem execAll_cons_eq_next {i : Instr} {is : List Instr} {s t : State} (h : execAll (i :: is) s = .next t) :
    ∃ u, exec i s = .next u ∧ execAll is u = .next t := by
  unfold execAll at h
  split at h
  · next u hu => exact ⟨u, hu, h⟩
  · cases h
  · cases h

/-- A run whose first event completes goes on with the rest. -/
theorem execAll_cons_of_next {i : Instr} {s u : State} (h : exec i s = .next u) (is : List Instr) :
    execAll (i :: is) s = execAll is u := by
  rw [execAll, h]

/-- A run whose first part completes goes on with the second part. -/
theorem execAll_append_of_next {l r : List Instr} {s u : State} (h : execAll l s = .next u) :
    execAll (l ++ r) s = execAll r u := by
  induction l generalizing s with
  | nil =>
    cases h
    rfl
  | cons i l ih =>
    obtain ⟨v, hv, hrest⟩ := execAll_cons_eq_next h
    rw [List.cons_append, execAll_cons_of_next hv, ih hrest]

/-- No event but a host write of 0x07 clears TXDE (R257). -/
theorem txde_of_exec {i : Instr} {s t : State} (h : exec i s = .next t) (hi : ∀ b, i ≠ .hwTxl b)
    (hs : s.txde = true) : t.txde = true := by
  by_cases hreset : i = .reset
  · subst hreset
    cases h
    show (resetRegisters s).isr.getLsbD 1 = true
    rw [resetRegisters_isr]
    rfl
  · cases htxde : t.txde
    · obtain ⟨_, _, hclear, _⟩ := flagsAreSetTogetherAndClearedAlone i s t hreset h
      obtain ⟨_, b, hb⟩ := hclear ⟨hs, htxde⟩
      exact absurd hb (hi b)
    · rfl

/-- Settles O33, by induction on the events. -/
theorem onlyTheLowByteWriteClearsTxde : Obligations.OnlyTheLowByteWriteClearsTxde := by
  intro is
  induction is with
  | nil =>
    intro s t _ hs h
    cases h
    exact hs
  | cons i is ih =>
    intro s t hi hs h
    obtain ⟨u, hu, hrest⟩ := execAll_cons_eq_next h
    rw [List.forall_mem_cons] at hi
    obtain ⟨hfirst, hothers⟩ := hi
    exact ih u t hothers (txde_of_exec hu hfirst hs) hrest

end Sys2Proof.Machine
end

section
/-! SUPPORT. Each invariant of 10_state.md section 8 along an event, then all of them along a step. -/

namespace Sys2Proof.Machine

/-! ## Mirrored flags (R28) and the command pending flag (R33) -/

/-- An event other than RESET keeps the mirrored pairs equal: it stores both bits of a pair or neither. -/
theorem mirrorInv_of_effect {i : Instr} {s t : State} (h : Effect s i t) (hi : i ≠ .reset) (hs : MirrorInv s) :
    MirrorInv t := by
  cases h with
  | readOnly | discarded | txhDropped | txhStored | txlDropped | bootHigh | bootLow | abort | ivr | ipr | pbc | bcr
  | pcd | plain => exact hs
  | consumeRx | consumeRxTransfer | consumeHrx | consumeHrxTransfer | txlStaged | txlTransfer | htxStaged | htxTransfer
  | cvr => simpa [MirrorInv] using hs
  | abortLatching =>
    obtain ⟨_, hhf1, hhf2, hhf3⟩ := hs
    simpa [MirrorInv] using And.intro hhf1 (And.intro hhf2 hhf3)
  | icr =>
    obtain ⟨_, _, hhf2, hhf3⟩ := hs
    simpa [MirrorInv] using And.intro hhf2 hhf3
  | hcr =>
    obtain ⟨hhf0, hhf1, _, _⟩ := hs
    simpa [MirrorInv] using And.intro hhf0 hhf1
  | reset => exact absurd rfl hi

/-- An event other than RESET keeps HCP equal to HC: only HW.CVR stores them, and it stores both. -/
theorem commandInv_of_effect {i : Instr} {s t : State} (h : Effect s i t) (hi : i ≠ .reset) (hs : CommandInv s) :
    CommandInv t := by
  cases h with
  | readOnly | discarded | txhDropped | txhStored | txlDropped | bootHigh | bootLow | abort | ivr | ipr | pbc | bcr
  | pcd | plain | consumeRx | txlStaged | hcr => exact hs
  | consumeRxTransfer | consumeHrx | consumeHrxTransfer | txlTransfer | htxStaged | htxTransfer | abortLatching | icr =>
    show BitVec.getLsbD _ 2 = s.cvr.getLsbD 7
    simp only [getLsbD_putBit]
    exact hs
  | cvr v =>
    show BitVec.getLsbD _ 2 = BitVec.getLsbD _ 7
    rw [getLsbD_putField_hv]
    simp only [getLsbD_putBit]
    rfl
  | reset => exact absurd rfl hi

/-- Settles O12: RESET stores the reset table, whose flags agree; every other event keeps the agreement. -/
theorem everyEventKeepsMirrorsAndCommand : Obligations.EveryEventKeepsMirrorsAndCommand := by
  intro i s t hs h
  by_cases hi : i = .reset
  · subst hi
    cases h
    exact ⟨(atReset_resetRegisters s).mirrorInv, (atReset_resetRegisters s).commandInv⟩
  · obtain ⟨hmirror, hcommand⟩ := hs.resolve_left hi
    have heff := effect_of_exec i s t h
    exact ⟨mirrorInv_of_effect heff hi hmirror, commandInv_of_effect heff hi hcommand⟩

/-! ## The bootstrap (R31) -/

/-- An event other than RESET leaves the mode and the offset, or advances the offset, or aborts (R146). -/
theorem boot_of_effect {i : Instr} {s t : State} (h : Effect s i t) (hi : i ≠ .reset) :
    (t.bootMode = s.bootMode ∧ t.bootOffset = s.bootOffset) ∨
    (∃ b, i = .hwTxl b ∧ s.bootMode = .active ∧ s.bootOffset < Layout.bootLimit ∧ t.bootOffset = s.bootOffset + 1 ∧
      t.bootMode = if s.bootOffset + 1 = Layout.bootLimit then .off else .active) ∨
    (∃ b, i = .hwIcr b ∧ b.getLsbD 3 = true ∧ s.bootMode = .active ∧ t.bootOffset = s.bootOffset ∧
      t.bootMode = .off) := by
  cases h with
  | readOnly | discarded | txhDropped | txhStored | txlDropped | bootHigh | ivr | ipr | pbc | bcr | pcd | plain
  | consumeRx | consumeRxTransfer | consumeHrx | consumeHrxTransfer | txlStaged | txlTransfer | htxStaged | htxTransfer
  | icr | cvr | hcr => exact .inl ⟨rfl, rfl⟩
  | bootLow b hm ho x y =>
    refine .inr (.inl ⟨b, rfl, hm, ho, rfl, ?_⟩)
    show (if _ then _ else s.bootMode) = _
    rw [hm]
  | abort b hm hb hl => exact .inr (.inr ⟨b, rfl, hb, hm, rfl, rfl⟩)
  | abortLatching b hm hb hl => exact .inr (.inr ⟨b, rfl, hb, hm, rfl, rfl⟩)
  | reset => exact absurd rfl hi

/-- An event other than RESET keeps the offset bounded, and below the bound while ACTIVE. -/
theorem bootInv_of_effect {i : Instr} {s t : State} (h : Effect s i t) (hi : i ≠ .reset) (hs : BootInv s) :
    BootInv t := by
  obtain ⟨hbound, hactive⟩ := hs
  rcases boot_of_effect h hi with ⟨hm, ho⟩ | ⟨b, _, _, hlt, ho, hm⟩ | ⟨b, _, _, _, ho, hm⟩
  · rw [BootInv, hm, ho]
    exact ⟨hbound, hactive⟩
  · rw [BootInv, hm, ho]
    refine ⟨hlt, fun hoff => ?_⟩
    split at hoff
    · cases hoff
    · omega
  · rw [BootInv, hm, ho]
    exact ⟨hbound, fun hoff => by cases hoff⟩

/-- Settles O15: of the three things an event can do to the bootstrap, none goes back. -/
theorem bootstrapOnlyAdvances : Obligations.BootstrapOnlyAdvances := by
  intro i s t hi hs h
  have heff := effect_of_exec i s t h
  obtain ⟨hbound, hactive⟩ := bootInv_of_effect heff hi hs
  have hend : t.bootOffset = 0x800 → t.bootMode = .off := by
    intro hlimit
    cases hm : t.bootMode
    · exact absurd hlimit (Nat.ne_of_lt (hactive hm))
    · rfl
  refine ⟨?_, hbound, ?_, hend⟩
  · rcases boot_of_effect heff hi with ⟨_, ho⟩ | ⟨_, _, _, _, ho, _⟩ | ⟨_, _, _, _, ho, _⟩ <;> omega
  · intro hoff
    rcases boot_of_effect heff hi with ⟨hm, _⟩ | ⟨_, _, hm, _⟩ | ⟨_, _, _, _, _, hm⟩
    · rw [hm, hoff]
    · rw [hoff] at hm
      cases hm
    · exact hm

/-! ## The backing store (R30, R171) -/

/-- An unnamed address is the address of its entry. -/
theorem dspIndex_val (a : Word) (ha : inWindow a = true) : a.toNat = 0xffc0 + (dspIndex a : Nat) := by
  rw [inWindow_iff] at ha
  show a.toNat = 0xffc0 + (a - 0xffc0#16).toNat % 64
  bv_omega

/-- Addresses of the window with one entry are one address. -/
theorem dspIndex_injective {a b : Word} (ha : inWindow a = true) (hb : inWindow b = true)
    (h : dspIndex a = dspIndex b) : a = b := by
  apply BitVec.eq_of_toNat_eq
  rw [dspIndex_val a ha, dspIndex_val b hb, h]

/-- An unnamed address has none of the entries of the named addresses. -/
theorem dspIndex_ne_named {a : Word} (ha : isPlainAddr a = true) :
    dspIndex a ≠ Layout.idxPBC ∧ dspIndex a ≠ Layout.idxBCR ∧ dspIndex a ≠ Layout.idxPCD ∧
    isRegisterEntry (dspIndex a) = false := by
  obtain ⟨hwin, hpbc, hhcr, hbcr, hipr, hpcd, hhsr, hhtrx⟩ := (isPlainAddr_iff a).mp ha
  have hne (b : Word) (hb : inWindow b = true) (hab : a ≠ b) : dspIndex a ≠ Layout.entryOf b :=
    fun h => hab (dspIndex_injective hwin hb h)
  refine ⟨hne _ rfl hpbc, hne _ rfl hbcr, hne _ rfl hpcd, ?_⟩
  simp only [isRegisterEntry, Bool.or_eq_false_iff, beq_eq_false_iff_ne]
  exact ⟨⟨⟨hne _ rfl hhcr, hne _ rfl hipr⟩, hne _ rfl hhsr⟩, hne _ rfl hhtrx⟩

/-- The valid mask of an unnamed address of class Plain is the mask of its class. -/
theorem validMask_of_plain (c : Cfg.Open) {a m : Word} (ha : isPlainAddr a = true)
    (hm : c.dspMap.get (dspIndex a) = .plain m) : validMask c (dspIndex a) = m := by
  obtain ⟨hpbc, hbcr, hpcd, hreg⟩ := dspIndex_ne_named ha
  rw [validMask, if_neg hpbc, if_neg hbcr, if_neg hpcd, if_neg (by simp [hreg]), hm]

/-- Entry i of a backing store after entry j is set. -/
theorem get_set (p : Vector Word dspCount) (i j : Fin dspCount) (v : Word) :
    (p.set j v).get i = if i = j then v else p.get i := by
  by_cases h : i = j
  · subst h
    simp [Vector.get_eq_getElem]
  · have hval : (j : Nat) ≠ i := fun e => h (Fin.ext e.symm)
    simp [Vector.get_eq_getElem, h, hval]

/-- The write of an entry: under its valid mask, and of an address that is not of class Discard (R103, R170). -/
def StoreWrite (c : Cfg.Open) (p q : Vector Word dspCount) : Prop :=
  ∃ (j : Fin dspCount) (v : Word), q = p.set j (v &&& validMask c j) ∧
    ∀ a, isPlainAddr a = true → dspIndex a = j → c.dspMap.get (dspIndex a) ≠ .discard

/-- An event other than RESET leaves the backing store or writes one entry of it. -/
theorem store_of_effect {i : Instr} {s t : State} (h : Effect s i t) (hi : i ≠ .reset) :
    t.p = s.p ∨ StoreWrite s.cfg s.p t.p := by
  cases h with
  | readOnly | discarded | txhDropped | txhStored | txlDropped | bootHigh | bootLow | abort | abortLatching | ivr | ipr
  | consumeRx | consumeRxTransfer | consumeHrx | consumeHrxTransfer | txlStaged | txlTransfer | htxStaged | htxTransfer
  | icr | cvr | hcr => exact .inl rfl
  | pbc v => exact .inr ⟨Layout.idxPBC, v, rfl, fun a ha hidx =>
      have ⟨hpbc, _, _, _⟩ := dspIndex_ne_named ha
      absurd hidx hpbc⟩
  | bcr v => exact .inr ⟨Layout.idxBCR, v, rfl, fun a ha hidx =>
      have ⟨_, hbcr, _, _⟩ := dspIndex_ne_named ha
      absurd hidx hbcr⟩
  | pcd v => exact .inr ⟨Layout.idxPCD, v, rfl, fun a ha hidx =>
      have ⟨_, _, hpcd, _⟩ := dspIndex_ne_named ha
      absurd hidx hpcd⟩
  | plain a v m hm ha =>
    refine .inr ⟨dspIndex a, v, by rw [validMask_of_plain s.cfg ha hm], fun b _ hidx hd => ?_⟩
    rw [hidx, hm] at hd
    cases hd
  | reset => exact absurd rfl hi

/-- A write of an entry keeps every entry under its valid mask. -/
theorem StoreWrite.valid {c : Cfg.Open} {p q : Vector Word dspCount} (h : StoreWrite c p q)
    (hp : ∀ i, outside (validMask c i) (p.get i) = 0) (i : Fin dspCount) : outside (validMask c i) (q.get i) = 0 := by
  obtain ⟨j, v, rfl, _⟩ := h
  rw [get_set]
  split
  · next hij =>
    subst hij
    exact outside_and_self _ v
  · exact hp i

/-- A write of an entry leaves the entries of class Discard. -/
theorem StoreWrite.discard {c : Cfg.Open} {p q : Vector Word dspCount} (h : StoreWrite c p q) {a : Word}
    (ha : isPlainAddr a = true) (hd : c.dspMap.get (dspIndex a) = .discard) :
    q.get (dspIndex a) = p.get (dspIndex a) := by
  obtain ⟨j, v, rfl, hclass⟩ := h
  rw [get_set, if_neg fun hidx => hclass a ha hidx hd]

/-! ## The configuration and program memory (R7, R43) -/

/-- No event changes the configuration. -/
theorem cfg_of_effect {i : Instr} {s t : State} (h : Effect s i t) : t.cfg = s.cfg := by
  cases h <;> rfl

/-- Only the two bootstrap writes change program memory, each by one lane of the window (R147, R148). -/
theorem pmem_of_effect {i : Instr} {s t : State} (h : Effect s i t) :
    t.pmem = s.pmem ∨ s.bootMode = .active ∧ (∃ b, i = .hwTxh b ∨ i = .hwTxl b) ∧
      ∃ lane b, lane < 2 * Layout.bootLimit ∧ t.pmem = Memory.write s.pmem lane b := by
  cases h with
  | bootHigh b hm ho x y => exact .inr ⟨hm, ⟨b, .inl rfl⟩, _, b, (lane_lt_window _ ho).1, rfl⟩
  | bootLow b hm ho x y => exact .inr ⟨hm, ⟨b, .inr rfl⟩, _, b, (lane_lt_window _ ho).2, rfl⟩
  | _ => exact .inl rfl

/-- Settles O47: the two frames above. -/
theorem configurationAndProgramMemoryFrame : Obligations.ConfigurationAndProgramMemoryFrame := by
  intro i s t h
  have heff := effect_of_exec i s t h
  refine ⟨cfg_of_effect heff, fun hne => ?_⟩
  obtain ⟨hm, hevent, _⟩ := (pmem_of_effect heff).resolve_left hne
  exact ⟨hm, hevent⟩

/-- Every event keeps program memory canonical and inside the window. -/
theorem pmemInv_of_effect {i : Instr} {s t : State} (h : Effect s i t) (hs : PmemInv s) : PmemInv t := by
  obtain ⟨hwf, hwin⟩ := hs
  rcases pmem_of_effect h with hp | ⟨_, _, lane, b, hlane, hp⟩
  · rw [PmemInv, hp]
    exact ⟨hwf, hwin⟩
  · rw [PmemInv, hp]
    exact ⟨Memory.wf_write _ _ _ hwf, Memory.inWindow_write _ _ _ hwin hlane⟩

/-! ## Reserved bits (R30) -/

/-- The seven registers have their reserved bits 0. -/
def RegistersValid (s : State) : Prop :=
  outside Layout.maskICR s.icr = 0 ∧ outside Layout.maskCVR s.cvr = 0 ∧ outside Layout.maskISR s.isr = 0 ∧
  outside Layout.maskIVR s.ivr = 0 ∧ outside Layout.maskHCR s.hcr = 0 ∧ outside Layout.maskHSR s.hsr = 0 ∧
  outside Layout.maskIPR s.ipr = 0

/-- R30 is the registers' part and the backing store's. -/
theorem reservedInv_iff (s : State) :
    ReservedInv s ↔ RegistersValid s ∧ ∀ i, outside (validMask s.cfg i) (s.p.get i) = 0 := by
  simp only [ReservedInv, RegistersValid, readP, and_assoc]

/-- An event other than RESET keeps the registers' reserved bits 0: it stores single valid bits and whole fields. -/
theorem registersValid_of_effect {i : Instr} {s t : State} (h : Effect s i t) (hi : i ≠ .reset)
    (hs : RegistersValid s) : RegistersValid t := by
  cases h with
  | readOnly | discarded | txhDropped | txhStored | txlDropped | bootHigh | bootLow | abort | pbc | bcr | pcd
  | plain => exact hs
  | consumeRx | consumeRxTransfer | consumeHrx | consumeHrxTransfer | txlStaged | txlTransfer | htxStaged | htxTransfer
  | abortLatching | icr | hcr =>
    obtain ⟨hicr, hcvr, hisr, hivr, hhcr, hhsr, hipr⟩ := hs
    simp (disch := decide) only [RegistersValid, outside_putBit]
    exact ⟨hicr, hcvr, hisr, hivr, hhcr, hhsr, hipr⟩
  | cvr v =>
    obtain ⟨hicr, hcvr, hisr, hivr, hhcr, hhsr, hipr⟩ := hs
    simp (disch := decide) only [RegistersValid, outside_putBit, outside_putField_hv]
    exact ⟨hicr, hcvr, hisr, hivr, hhcr, hhsr, hipr⟩
  | ivr v =>
    obtain ⟨hicr, hcvr, hisr, _, hhcr, hhsr, hipr⟩ := hs
    exact ⟨hicr, hcvr, hisr, outside_allOnes v, hhcr, hhsr, hipr⟩
  | ipr v =>
    obtain ⟨hicr, hcvr, hisr, hivr, hhcr, hhsr, _⟩ := hs
    exact ⟨hicr, hcvr, hisr, hivr, hhcr, hhsr, outside_allOnes v⟩
  | reset => exact absurd rfl hi

/-! ## All of them -/

/-- An event other than RESET keeps the invariant. -/
theorem inv_of_effect {i : Instr} {s t : State} (h : Effect s i t) (hi : i ≠ .reset) (hs : s.Inv) : t.Inv := by
  have hcfg := cfg_of_effect h
  obtain ⟨hregs, hstore⟩ := (reservedInv_iff s).mp hs.reserved
  refine ⟨mirrorInv_of_effect h hi hs.mirror, handshakeInv_of_flagChange (flagChange_of_effect h hi) hs.handshake,
    (reservedInv_iff t).mpr ⟨registersValid_of_effect h hi hregs, ?_⟩, bootInv_of_effect h hi hs.boot,
    commandInv_of_effect h hi hs.command, ?_, pmemInv_of_effect h hs.pmem, hcfg ▸ hs.cfg⟩
  · rw [hcfg]
    rcases store_of_effect h hi with hp | hw
    · rwa [hp]
    · exact hw.valid hstore
  · intro a ha hd
    rw [hcfg] at hd ⊢
    refine Eq.trans ?_ (hs.discard a ha hd)
    rcases store_of_effect h hi with hp | hw
    · rw [readP, readP, hp]
    · exact hw.discard ha hd

/-- RESET establishes the invariant, but for the clauses on what it leaves alone. -/
theorem inv_resetRegisters {s : State} (hpmem : PmemInv s) (hcfg : CfgOk s.cfg) : (resetRegisters s).Inv :=
  have h := atReset_resetRegisters s
  ⟨h.mirrorInv, h.handshakeInv, h.reservedInv hcfg, h.bootInv, h.commandInv, h.discardInv, hpmem, hcfg⟩

/-- Every event keeps the invariant. -/
theorem inv_of_exec {i : Instr} {s t : State} (h : exec i s = .next t) (hs : s.Inv) : t.Inv := by
  by_cases hi : i = .reset
  · subst hi
    cases h
    exact inv_resetRegisters hs.pmem hs.cfg
  · exact inv_of_effect (effect_of_exec i s t h) hi hs

/-- The arrival of an event keeps the invariant, which does not speak of the queue, the result or the outputs. -/
theorem inv_arrive {s : State} (hs : s.Inv) (rest : List EventWord) : (arrive rest s).Inv :=
  ⟨hs.mirror, hs.handshake, hs.reserved, hs.boot, hs.command, hs.discard, hs.pmem, hs.cfg⟩

/-- A step from an empty queue. -/
theorem step_of_empty {s : State} (hq : s.queue = []) : step s = .next s := by
  rw [step, hq]

/-- A step whose next word spells no event. -/
theorem step_of_error {s : State} {e : EventWord} {rest : List EventWord} {why : NotEvent} (hq : s.queue = e :: rest)
    (he : decode e = .error why) : step s = .refused (.notAnEvent e why) := by
  simp only [step, hq, he]

/-- A step whose next word spells an event. -/
theorem step_of_ok {s : State} {e : EventWord} {rest : List EventWord} {i : Instr} (hq : s.queue = e :: rest)
    (hi : decode e = .ok i) : step s = exec i (arrive rest s) := by
  simp only [step, hq, hi]

/-- Settles O11: the step is an arrival and an event, and both keep the invariant. -/
theorem stepKeepsTheInvariant : Obligations.StepKeepsTheInvariant := by
  intro s t hs h
  cases hq : s.queue with
  | nil =>
    rw [step_of_empty hq] at h
    cases h
    exact hs
  | cons e rest =>
    cases he : decode e with
    | ok i =>
      rw [step_of_ok hq he] at h
      exact inv_of_exec h (inv_arrive hs rest)
    | error why =>
      rw [step_of_error hq he] at h
      cases h

/-- Settles O6. -/
theorem stepRunsTheArrivingEvent : Obligations.StepRunsTheArrivingEvent :=
  fun _ _ _ _ hq hi => step_of_ok hq hi

/-- Settles O7. -/
theorem stepRefusesNonEventsAndIdles : Obligations.StepRefusesNonEventsAndIdles :=
  ⟨fun _ _ _ _ hq he => step_of_error hq he, fun _ hq => step_of_empty hq⟩

/-! ## Reset -/

/-- The default reset values of the backing store are 0. -/
theorem cfgOk_atReset : CfgOk Cfg.Open.atReset := by
  intro i
  have hzero : Cfg.Open.atReset.resetP.get i = 0 := by simp [Cfg.Open.atReset, Vector.get_eq_getElem]
  rw [hzero, outside_eq_zero_iff]
  intro j _
  simp

/-- Settles O10: the state after reset holds the reset table, and its program memory is empty. -/
theorem resetStateSatisfiesTheInvariant : Obligations.ResetStateSatisfiesTheInvariant :=
  have h := atReset_reset
  ⟨h.mirrorInv, h.handshakeInv, h.reservedInv cfgOk_atReset, h.bootInv, h.commandInv, h.discardInv, ⟨rfl, rfl⟩,
    cfgOk_atReset⟩

/-- Settles O17: the reset table, and the fields RESET does not name. -/
theorem resetEventStoresTheResetTable : Obligations.ResetEventStoresTheResetTable := by
  intro s
  have h := atReset_resetRegisters s
  have hflags : (resetRegisters s).flags = ⟨true, false, true, false⟩ := by
    rw [State.flags_eq, h.isr, h.hsr]
    rfl
  obtain ⟨htxde, hhrdf, hhtde, hrxdf⟩ := (flags_eq_iff _ _ _ _ _).mp hflags
  have hhcp : (resetRegisters s).hcp = false := by
    rw [State.hcp, h.hsr]
    rfl
  refine ⟨resetRegisters s, rfl, h.bootMode, h.bootOffset, htxde, hhrdf, hhtde, hrxdf, hhcp, ?_, h.hcr, h.icr, h.isr,
    h.hsr, ?_, h.ivr, h.ipr, h.p, rfl, rfl, rfl, rfl, rfl⟩
  · exact h.commandInv.symm.trans hhcp
  · rw [h.cvr]
    exact extractLsb'_putField_hv _ _

/-- Settles O18: what the reset table implies, and the table is a function of the configuration, which RESET leaves. -/
theorem resetEstablishesTheInvariantsAndRepeats : Obligations.ResetEstablishesTheInvariantsAndRepeats := by
  intro s
  have h := atReset_resetRegisters s
  exact ⟨resetRegisters s, rfl, h.mirrorInv, h.handshakeInv, h.reservedInv, h.bootInv, h.commandInv,
    resetRegisters (resetRegisters s), rfl, rfl⟩

end Sys2Proof.Machine
end

section
/-! SUPPORT. Which events complete, and what the reads return: the value each read returns, said once, and the claims on
reads of registers, discarded writes and read-back. -/

namespace Sys2Proof.Machine

/-! ## Completion -/

/-- Settles O8: the four meanings with an operand range refuse what is outside it. -/
theorem illFormedTermsAreRefused : Obligations.IllFormedTermsAreRefused := by
  intro i s h
  cases i with
  | hrInvalid o | hwInvalid o b | drP a | dwP a w => exact if_neg (Bool.eq_false_iff.mp h)
  | _ => cases h

/-- An event that completes is well formed. -/
theorem wellFormed_of_exec {i : Instr} {s t : State} (h : exec i s = .next t) : i.wellFormed = true := by
  by_contra hwf
  rw [illFormedTermsAreRefused i s (Bool.eq_false_iff.mpr hwf)] at h
  cases h

/-- Settles O9: both bootstrap writes test the offset first. -/
theorem bootWriteOutsideTheWindowFaults : Obligations.BootWriteOutsideTheWindowFaults := by
  intro s d hactive hout
  have hlimit : ¬ s.bootOffset < Layout.bootLimit := Nat.not_lt.mpr hout
  exact ⟨(if_pos hactive).trans (if_neg hlimit), (if_pos hactive).trans (if_neg hlimit)⟩

/-- What an event needs to complete: a well-formed term, and room in program memory for a bootstrap write. -/
def CanRun (i : Instr) (s : State) : Prop :=
  i.wellFormed = true ∧
    ((∃ b, i = .hwTxh b ∨ i = .hwTxl b) → s.bootMode = .active → s.bootOffset < Layout.bootLimit)

/-- An event that can run completes (60_exceptions.md R215). -/
theorem exec_completes {i : Instr} {s : State} (h : CanRun i s) : ∃ t, exec i s = .next t := by
  obtain ⟨hwf, hlimit⟩ := h
  cases i with
  | hrInvalid o | hwInvalid o b | drP a | dwP a w => exact ⟨_, if_pos hwf⟩
  | hwTxh b =>
    cases hm : s.bootMode with
    | active => exact ⟨_, exec_hwTxh_active b s hm (hlimit ⟨b, .inl rfl⟩ hm)⟩
    | off => exact ⟨_, exec_hwTxh_off b s hm⟩
  | hwTxl b =>
    cases hm : s.bootMode with
    | active => exact ⟨_, exec_hwTxl_active b s hm (hlimit ⟨b, .inr rfl⟩ hm)⟩
    | off => exact ⟨_, exec_hwTxl_off b s hm⟩
  | _ => exact ⟨_, rfl⟩

/-- An event that completes could run. -/
theorem canRun_of_exec {i : Instr} {s t : State} (h : exec i s = .next t) : CanRun i s := by
  refine ⟨wellFormed_of_exec h, fun ⟨b, hi⟩ hactive => ?_⟩
  by_contra hlimit
  obtain ⟨hhigh, hlow⟩ := bootWriteOutsideTheWindowFaults s b hactive (Nat.not_lt.mp hlimit)
  rcases hi with rfl | rfl
  · cases hhigh.symm.trans h
  · cases hlow.symm.trans h

/-- Between events every well-formed event can run (R31). -/
theorem canRun_of_bootInv {i : Instr} {s : State} (hwf : i.wellFormed = true) (hboot : BootInv s) : CanRun i s :=
  ⟨hwf, fun _ => hboot.2⟩

/-- Settles O14: a word that satisfies the five clauses decodes to a well-formed event. -/
theorem noEventFaultsOrIsRefused : Obligations.NoEventFaultsOrIsRefused := by
  refine ⟨fun i s hwf hs => exec_completes (canRun_of_bootInv hwf hs.boot), fun s e rest hs hq hev => ?_⟩
  obtain ⟨i, hi⟩ := (exists_spells_iff_isEvent e).mpr hev
  obtain ⟨hwf, _⟩ := spells_spec hi
  rw [step_of_ok hq (decode_of_spells hi)]
  exact exec_completes (canRun_of_bootInv hwf (inv_arrive hs rest).boot)

/-! ## The class of an event -/

/-- The five columns of the decode (30_encoding.md R73 to R75). -/
inductive Column where
  | hostRead
  | hostWrite
  | dspRead
  | dspWrite
  | system

/-- The column an event is decoded from. -/
def column : Instr → Column
  | .hrIcr | .hrCvr | .hrIsr | .hrIvr | .hrUnused4 | .hrRsvd5 | .hrRxh | .hrRxl | .hrInvalid _ => .hostRead
  | .hwIcr _ | .hwCvr _ | .hwIsr _ | .hwIvr _ | .hwUnused4 _ | .hwRsvd5 _ | .hwTxh _ | .hwTxl _
  | .hwInvalid _ _ => .hostWrite
  | .drPbc | .drHcr | .drBcr | .drIpr | .drPcd | .drHsr | .drHtrx | .drP _ => .dspRead
  | .dwPbc _ | .dwHcr _ | .dwBcr _ | .dwIpr _ | .dwPcd _ | .dwHsr _ | .dwHtrx _ | .dwP _ _ => .dspWrite
  | .reset => .system

/-- The agent of a column (R60). -/
def Column.agent : Column → BitVec 2
  | .hostRead | .hostWrite => Layout.agentHost
  | .dspRead | .dspWrite => Layout.agentDsp
  | .system => Layout.agentSystem

/-- The direction bit of a column (R60). -/
def Column.isWrite : Column → Bool
  | .hostWrite | .dspWrite => true
  | .hostRead | .dspRead | .system => false

/-- The encoding of an event has the agent and direction of its column. -/
theorem encode_column (i : Instr) :
    evAgent (encode i) = (column i).agent ∧ evWrite (encode i) = (column i).isWrite := by
  cases i <;> exact ⟨evAgent_eventWord .., evWrite_eventWord ..⟩

theorem isHostEvent_iff (i : Instr) : isHostEvent i = true ↔ column i = .hostRead ∨ column i = .hostWrite := by
  rw [isHostEvent, (encode_column i).1]
  cases column i <;> simp [Column.agent]

theorem isDspEvent_iff (i : Instr) : isDspEvent i = true ↔ column i = .dspRead ∨ column i = .dspWrite := by
  rw [isDspEvent, (encode_column i).1]
  cases column i <;> simp [Column.agent]

theorem isWriteEvent_iff (i : Instr) : isWriteEvent i = true ↔ column i = .hostWrite ∨ column i = .dspWrite := by
  rw [isWriteEvent, (encode_column i).2]
  cases column i <;> simp [Column.isWrite]

/-- RESET is alone in its column. -/
theorem column_eq_system_iff (i : Instr) : column i = .system ↔ i = .reset := by
  cases i <;> simp [column]

/-- An event that is no write and not RESET is a read. -/
theorem column_of_read {i : Instr} (hw : isWriteEvent i = false) (hi : i ≠ .reset) :
    column i = .hostRead ∨ column i = .dspRead := by
  rw [← Bool.not_eq_true, isWriteEvent_iff] at hw
  rw [Ne, ← column_eq_system_iff] at hi
  cases hc : column i <;> simp_all

/-- A host event that is no write is a host read. -/
theorem column_eq_hostRead {i : Instr} (hhost : isHostEvent i = true) (hw : isWriteEvent i = false) :
    column i = .hostRead := by
  rw [isHostEvent_iff] at hhost
  rw [← Bool.not_eq_true, isWriteEvent_iff] at hw
  tauto

/-- A DSP event that is no write is a DSP read. -/
theorem column_eq_dspRead {i : Instr} (hdsp : isDspEvent i = true) (hw : isWriteEvent i = false) :
    column i = .dspRead := by
  rw [isDspEvent_iff] at hdsp
  rw [← Bool.not_eq_true, isWriteEvent_iff] at hw
  tauto

/-! ## What a read returns -/

/-- The value a read returns, taken before the event changes anything (45_host_port.md section 2, 44_dsp_dispatcher.md
section 2); none for an event that is no read. -/
def readValue : Instr → State → Option ReadResult
  | .hrIcr, s => some (.byte s.icr)
  | .hrCvr, s => some (.byte s.cvr)
  | .hrIsr, s => some (.byte s.isr)
  | .hrIvr, s => some (.byte s.ivr)
  | .hrUnused4, _ => some (.byte 0x00)
  | .hrRsvd5, s => some (.byte s.cfg.hostRd5)
  | .hrRxh, s => some (.byte (if s.rxdf then s.rxh else 0xbf))
  | .hrRxl, s => some (.byte (if s.rxdf then s.rxl else 0xbf))
  | .hrInvalid _, _ => some (.byte 0xff)
  | .drPbc, s => some (.word (s.p.get 0x00))
  | .drHcr, s => some (.word s.hcr)
  | .drBcr, s => some (.word (s.p.get 0x1e))
  | .drIpr, s => some (.word s.ipr)
  | .drPcd, s => some (.word (s.p.get 0x23))
  | .drHsr, s => some (.word s.hsr)
  | .drHtrx, s => some (.word (if s.hrdf then s.hrx else 0xbeef))
  | .drP a, s => some (.word (s.p.get (dspIndex a)))
  | _, _ => none

/-- The event is one of the two reads that change state, with its flag set (R47). -/
def Consumes (i : Instr) (s : State) : Prop := (i = .drHtrx ∧ s.hrdf = true) ∨ (i = .hrRxl ∧ s.rxdf = true)

/-- A read has a value. -/
theorem exists_readValue {i : Instr} (h : column i = .hostRead ∨ column i = .dspRead) (s : State) :
    ∃ r, readValue i s = some r := by
  cases i with
  | hrIcr | hrCvr | hrIsr | hrIvr | hrUnused4 | hrRsvd5 | hrRxh | hrRxl | hrInvalid | drPbc | drHcr | drBcr | drIpr
  | drPcd | drHsr | drHtrx | drP => exact ⟨_, rfl⟩
  | _ => simp [column] at h

/-- A read that consumes nothing returns its value and changes nothing else. -/
theorem exec_read {i : Instr} {s : State} {r : ReadResult} (hwf : i.wellFormed = true) (hr : readValue i s = some r)
    (hc : ¬ Consumes i s) : exec i s = .next (withResult r s) := by
  cases i with
  | hrIcr | hrCvr | hrIsr | hrIvr | hrUnused4 | hrRsvd5 | hrRxh | drPbc | drHcr | drBcr | drIpr | drPcd | drHsr =>
    cases hr
    rfl
  | hrInvalid | drP =>
    cases hr
    exact if_pos hwf
  | hrRxl =>
    have hrxdf : s.rxdf = false := Bool.eq_false_iff.mpr fun h => hc (.inr ⟨rfl, h⟩)
    cases hr
    rw [exec_hrRxl_of_empty s hrxdf, hrxdf]
    rfl
  | drHtrx =>
    have hhrdf : s.hrdf = false := Bool.eq_false_iff.mpr fun h => hc (.inl ⟨rfl, h⟩)
    cases hr
    rw [exec_drHtrx_of_empty s hhrdf, hhrdf]
    rfl
  | _ => cases hr

/-- A read that completes and consumes nothing leaves everything but the result. -/
theorem eq_withResult_of_read {i : Instr} {s t : State} (h : exec i s = .next t)
    (hread : column i = .hostRead ∨ column i = .dspRead) (hc : ¬ Consumes i s) :
    ∃ r, readValue i s = some r ∧ t = withResult r s := by
  obtain ⟨r, hr⟩ := exists_readValue hread s
  rw [exec_read (wellFormed_of_exec h) hr hc] at h
  cases h
  exact ⟨r, hr, rfl⟩

/-- DR.HTRX with its flag set and nothing staged (R168). -/
theorem exec_drHtrx_of_one {s : State} (hhrdf : s.hrdf = true) (htxde : s.txde = true) :
    exec .drHtrx s = .next { s with result := some (.word s.hrx), hsr := putBit s.hsr 0 false } := by
  show Host.Outcome.next (if s.hrdf then _ else _) = _
  rw [if_pos hhrdf, setHRDF_false_empty s htxde]
  rfl

/-- DR.HTRX with its flag set and a word staged: the host-to-DSP transfer (R127, R130). -/
theorem exec_drHtrx_of_full {s : State} (hhrdf : s.hrdf = true) (htxde : s.txde = false) :
    exec .drHtrx s = .next { s with
      result := some (.word s.hrx), hrx := joinBytes s.txh s.txl, isr := putBit s.isr 1 true
      outs := s.outs ++ requestIf s.hrie .hostReceiveData } := by
  show Host.Outcome.next (if s.hrdf then _ else _) = _
  have hkeep : putBit (putBit s.hsr 0 false) 0 true = s.hsr := by rw [putBit_putBit, putBit_self _ _ _ hhrdf]
  rw [if_pos hhrdf, setHRDF_false_full s htxde, xferHostToDsp_eq]
  simp only [withResult, storeHRDF, hkeep]
  rfl

/-- HR.RXL with its flag set and nothing staged (R192). -/
theorem exec_hrRxl_of_one {s : State} (hrxdf : s.rxdf = true) (hhtde : s.htde = true) :
    exec .hrRxl s = .next { s with result := some (.byte s.rxl), isr := putBit s.isr 0 false } := by
  show Host.Outcome.next (if s.rxdf then _ else _) = _
  rw [if_pos hrxdf, setRXDF_false_empty s hhtde]
  rfl

/-- HR.RXL with its flag set and a word staged: the DSP-to-host transfer (R129, R131). -/
theorem exec_hrRxl_of_full {s : State} (hrxdf : s.rxdf = true) (hhtde : s.htde = false) :
    exec .hrRxl s = .next { s with
      result := some (.byte s.rxl), rxh := highByte s.htx, rxl := lowByte s.htx, hsr := putBit s.hsr 1 true
      outs := s.outs ++ requestIf s.htie .hostTransmitData } := by
  show Host.Outcome.next (if s.rxdf then _ else _) = _
  have hkeep : putBit (putBit s.isr 0 false) 0 true = s.isr := by rw [putBit_putBit, putBit_self _ _ _ hrxdf]
  rw [if_pos hrxdf, setRXDF_false_full s hhtde, xferDspToHost_eq]
  simp only [withResult, storeRXDF, hkeep]
  rfl

/-- Every read that completes returns its value. -/
theorem result_of_read {i : Instr} {s t : State} (h : exec i s = .next t)
    (hread : column i = .hostRead ∨ column i = .dspRead) : t.result = readValue i s := by
  by_cases hc : Consumes i s
  · rcases hc with ⟨rfl, hhrdf⟩ | ⟨rfl, hrxdf⟩
    · cases htxde : s.txde
      · rw [exec_drHtrx_of_full hhrdf htxde] at h
        cases h
        simp [readValue, hhrdf]
      · rw [exec_drHtrx_of_one hhrdf htxde] at h
        cases h
        simp [readValue, hhrdf]
    · cases hhtde : s.htde
      · rw [exec_hrRxl_of_full hrxdf hhtde] at h
        cases h
        simp [readValue, hrxdf]
      · rw [exec_hrRxl_of_one hrxdf hhtde] at h
        cases h
        simp [readValue, hrxdf]
  · obtain ⟨r, hr, rfl⟩ := eq_withResult_of_read h hread hc
    exact hr.symm

/-! ## Reads that change state (R47) -/

/-- The consuming read of 0xffe5 changes a flag: HRDF goes to 0, or TXDE to 1. -/
theorem flags_ne_of_drHtrx {s t : State} (hhrdf : s.hrdf = true) (h : exec .drHtrx s = .next t) :
    t.flags ≠ s.flags := by
  cases htxde : s.txde
  · rw [exec_drHtrx_of_full hhrdf htxde] at h
    cases h
    simp only [State.flags_eq, getLsbD_putBit]
    intro hflags
    have htxde' : true = s.txde := congrArg PathFlags.txde hflags
    simp [htxde] at htxde'
  · rw [exec_drHtrx_of_one hhrdf htxde] at h
    cases h
    simp only [State.flags_eq, getLsbD_putBit]
    intro hflags
    have hhrdf' : false = s.hrdf := congrArg PathFlags.hrdf hflags
    simp [hhrdf] at hhrdf'

/-- The consuming read of 0x07 changes a flag: RXDF goes to 0, or HTDE to 1. -/
theorem flags_ne_of_hrRxl {s t : State} (hrxdf : s.rxdf = true) (h : exec .hrRxl s = .next t) :
    t.flags ≠ s.flags := by
  cases hhtde : s.htde
  · rw [exec_hrRxl_of_full hrxdf hhtde] at h
    cases h
    simp only [State.flags_eq, getLsbD_putBit]
    intro hflags
    have hhtde' : true = s.htde := congrArg PathFlags.htde hflags
    simp [hhtde] at hhtde'
  · rw [exec_hrRxl_of_one hrxdf hhtde] at h
    cases h
    simp only [State.flags_eq, getLsbD_putBit]
    intro hflags
    have hrxdf' : false = s.rxdf := congrArg PathFlags.rxdf hflags
    simp [hrxdf] at hrxdf'

/-- The consuming read of 0xffe5 changes more than the result. -/
theorem drHtrx_changes_state (s t : State) (hhrdf : s.hrdf = true) (h : exec .drHtrx s = .next t) :
    t ≠ { s with result := t.result } :=
  fun heq =>
    have hflags := congrArg State.flags heq
    flags_ne_of_drHtrx hhrdf h hflags

/-- The consuming read of 0x07 changes more than the result. -/
theorem hrRxl_changes_state (s t : State) (hrxdf : s.rxdf = true) (h : exec .hrRxl s = .next t) :
    t ≠ { s with result := t.result } :=
  fun heq =>
    have hflags := congrArg State.flags heq
    flags_ne_of_hrRxl hrxdf h hflags

/-- A read's value does not depend on the record of the latest result. -/
theorem readValue_withResult (i : Instr) (r : ReadResult) (s : State) :
    readValue i (withResult r s) = readValue i s := by
  cases i <;> rfl

/-- Settles O43: a read that consumes nothing returns its value from an unchanged state, which has the same value. -/
theorem onlyTwoReadsChangeState : Obligations.OnlyTwoReadsChangeState := by
  refine ⟨fun i s t hw hi h h5 h7 => ?_, drHtrx_changes_state, hrRxl_changes_state⟩
  have hc : ¬ Consumes i s := fun hcons => hcons.elim h5 h7
  obtain ⟨r, hr, rfl⟩ := eq_withResult_of_read h (column_of_read hw hi) hc
  exact ⟨rfl, exec_read (wellFormed_of_exec h) ((readValue_withResult i r s).trans hr) hc⟩

/-- Settles O46: the value of a read is a function of its own side's registers. -/
theorem readsDependOnTheirOwnSide : Obligations.ReadsDependOnTheirOwnSide := by
  constructor
  · intro i s s' t t' hdsp hw hhcr hhsr hhrx hipr hp h h'
    have hread := column_eq_dspRead hdsp hw
    have hhrdf : s.hrdf = s'.hrdf := congrArg (fun r => r.getLsbD 0) hhsr
    rw [result_of_read h (.inr hread), result_of_read h' (.inr hread)]
    cases i with
    | drPbc | drHcr | drBcr | drIpr | drPcd | drHsr | drHtrx | drP =>
      simp only [readValue, hhrdf, hhcr, hhsr, hhrx, hipr, hp]
    | _ => cases hread
  · intro i s s' t t' hhost hw hicr hcvr hisr hivr hrxh hrxl hrd5 h h'
    have hread := column_eq_hostRead hhost hw
    have hrxdf : s.rxdf = s'.rxdf := congrArg (fun r => r.getLsbD 0) hisr
    rw [result_of_read h (.inl hread), result_of_read h' (.inl hread)]
    cases i with
    | hrIcr | hrCvr | hrIsr | hrIvr | hrUnused4 | hrRsvd5 | hrRxh | hrRxl | hrInvalid =>
      simp only [readValue, hrxdf, hicr, hcvr, hisr, hivr, hrxh, hrxl, hrd5]
    | _ => cases hread

/-! ## Reads of registers and discarded writes -/

/-- Settles O19: the reads return their values. -/
theorem hostRegisterReads : Obligations.HostRegisterReads := by
  intro s
  refine ⟨rfl, fun hreserved => ?_, rfl, rfl, rfl, rfl, rfl, fun o ho => if_pos ((isInvalidOffset_iff o).mpr ho)⟩
  obtain ⟨⟨hicr, _⟩, _⟩ := (reservedInv_iff s).mp hreserved
  exact hicr

/-- Settles O20: the reads return their values, and the entry of the k-th address is k. -/
theorem dspRegisterReads : Obligations.DspRegisterReads := by
  intro s
  refine ⟨rfl, fun hreserved => ?_, rfl, fun hreserved => ?_, rfl, rfl, rfl, rfl, fun a k hk ha => ?_⟩
  · obtain ⟨⟨_, _, _, _, hhcr, _⟩, _⟩ := (reservedInv_iff s).mp hreserved
    exact hhcr
  · obtain ⟨⟨_, _, _, _, _, hhsr, _⟩, _⟩ := (reservedInv_iff s).mp hreserved
    exact hhsr
  · obtain rfl : dspIndex a = k := dspIndex_eq a k hk
    exact ⟨if_pos ha, fun hdiscard hclass => hdiscard a ha hclass⟩

/-- Settles O26: each discarded write emits its diagnostic. -/
theorem discardedWrites : Obligations.DiscardedWrites :=
  fun _ => ⟨fun _ => rfl, fun _ => rfl, fun _ => rfl, fun o _ ho => if_pos ((isInvalidOffset_iff o).mpr ho),
    fun _ => rfl⟩

/-! ## Read-back -/

/-- The entry just set. -/
theorem get_set_self (p : Vector Word dspCount) (i : Fin dspCount) (v : Word) : (p.set i v).get i = v := by
  rw [get_set, if_pos rfl]

/-- A write that completes in t, then a read of a register that returns v from there. -/
theorem readBack_of_exec {w r : Instr} {s t : State} {v : ReadResult} (hw : exec w s = .next t)
    (hwf : r.wellFormed = true) (hv : readValue r t = some v) (h5 : r ≠ .drHtrx) (h7 : r ≠ .hrRxl) :
    ∃ t u, exec w s = .next t ∧ exec r t = .next u ∧ u.result = some v :=
  have hc : ¬ Consumes r t := fun hc => hc.elim (fun ⟨hr, _⟩ => h5 hr) (fun ⟨hr, _⟩ => h7 hr)
  ⟨t, _, hw, exec_read hwf hv hc, rfl⟩

/-- Settles O27: each write's next state is known (O21 to O25), and each read returns a register of it. -/
theorem readBackAfterWrite : Obligations.ReadBackAfterWrite := by
  intro s hs
  obtain ⟨⟨hicr, hcvr, _, _, hhcr, _, _⟩, _⟩ := (reservedInv_iff s).mp hs.reserved
  obtain ⟨hwIvr, hwIpr, hwPbc, hwBcr, hwPcd⟩ := writesOfPlainRegisters s
  refine ⟨fun v hoff => ?icr, fun v => ?cvr, fun v => ?ivr, fun v => ?hcr, fun v => ?ipr, fun v => ?pbc, fun v => ?bcr,
    fun v => ?pcd, fun a v m ha hm => ?plain⟩
  case icr =>
    exact readBack_of_exec (hostWriteOfIcr s v hicr (by simp [hoff])) rfl rfl nofun nofun
  case cvr => exact readBack_of_exec (hostWriteOfCvr s v hcvr) rfl rfl nofun nofun
  case ivr => exact readBack_of_exec (hwIvr v) rfl rfl nofun nofun
  case hcr => exact readBack_of_exec (dspWriteOfHcr s v hhcr) rfl rfl nofun nofun
  case ipr => exact readBack_of_exec (hwIpr v) rfl rfl nofun nofun
  case pbc =>
    have hget : (s.p.set 0x00 (v &&& 0x0001#16)).get 0x00 = v &&& 0x0001#16 := get_set_self s.p 0x00 _
    exact readBack_of_exec (hwPbc v) rfl (congrArg (some ∘ ReadResult.word) hget) nofun nofun
  case bcr =>
    have hget : (s.p.set 0x1e (v &&& s.cfg.maskBcr)).get 0x1e = v &&& s.cfg.maskBcr := get_set_self s.p 0x1e _
    exact readBack_of_exec (hwBcr v) rfl (congrArg (some ∘ ReadResult.word) hget) nofun nofun
  case pcd =>
    have hget : (s.p.set 0x23 (v &&& s.cfg.maskPcd)).get 0x23 = v &&& s.cfg.maskPcd := get_set_self s.p 0x23 _
    exact readBack_of_exec (hwPcd v) rfl (congrArg (some ∘ ReadResult.word) hget) nofun nofun
  case plain =>
    obtain ⟨hplain, _⟩ := dspWriteOfPlainAddress s a v (dspIndex a)
      (dspIndex_val a (inWindow_of_isPlainAddr a ha)) ha
    exact readBack_of_exec (hplain m hm) ha (congrArg (some ∘ ReadResult.word) (get_set_self s.p (dspIndex a) _))
      nofun nofun

end Sys2Proof.Machine
end

section
/-! SUPPORT. The two data paths (42_handshake_engine.md R134, R135): each access as one update for each state of its
path, the two tables, and words sent along a path. -/

namespace Sys2Proof.Machine

/-! ## Flag stores as masks -/

theorem isr_setRXDF_eq (r : Byte) : putBit r 0 true = r ||| 0x01#8 := putBit_eq_ite r 0 true
theorem isr_clearRXDF_eq (r : Byte) : putBit r 0 false = r &&& 0xfe#8 := putBit_eq_ite r 0 false
theorem isr_setTXDE_eq (r : Byte) : putBit r 1 true = r ||| 0x02#8 := putBit_eq_ite r 1 true
theorem isr_clearTXDE_eq (r : Byte) : putBit r 1 false = r &&& 0xfd#8 := putBit_eq_ite r 1 false
theorem hsr_setHRDF_eq (r : Word) : putBit r 0 true = r ||| 0x0001#16 := putBit_eq_ite r 0 true
theorem hsr_clearHRDF_eq (r : Word) : putBit r 0 false = r &&& 0xfffe#16 := putBit_eq_ite r 0 false
theorem hsr_setHTDE_eq (r : Word) : putBit r 1 true = r ||| 0x0002#16 := putBit_eq_ite r 1 true
theorem hsr_clearHTDE_eq (r : Word) : putBit r 1 false = r &&& 0xfffd#16 := putBit_eq_ite r 1 false

/-! ## The writes of the host-to-DSP path, the bootstrap off -/

/-- HW.TXH while the path takes a byte (R197). -/
theorem exec_hwTxh_of_txde {s : State} (b : Byte) (hoff : s.bootMode = .off) (htxde : s.txde = true) :
    exec (.hwTxh b) s = .next { s with txh := b } := by
  rw [exec_hwTxh_off b s hoff, writeTxh, if_pos htxde]

/-- HW.TXH while the path is full (R197). -/
theorem exec_hwTxh_of_full {s : State} (b : Byte) (hoff : s.bootMode = .off) (htxde : s.txde = false) :
    exec (.hwTxh b) s = .next s := by
  rw [exec_hwTxh_off b s hoff, writeTxh, if_neg (by simp [htxde])]

/-- HW.TXL while the path is full (R198). -/
theorem exec_hwTxl_of_full {s : State} (b : Byte) (hoff : s.bootMode = .off) (htxde : s.txde = false) :
    exec (.hwTxl b) s = .next s := by
  rw [exec_hwTxl_off b s hoff, writeTxl, if_neg (by simp [htxde])]

/-- HW.TXL behind a full DSP side: the word is staged (R128). -/
theorem exec_hwTxl_of_one {s : State} (b : Byte) (hoff : s.bootMode = .off) (htxde : s.txde = true)
    (hhrdf : s.hrdf = true) : exec (.hwTxl b) s = .next { s with txl := b, isr := putBit s.isr 1 false } := by
  rw [exec_hwTxl_off b s hoff, writeTxl, if_pos htxde, setTXDE_false_full ({ s with txl := b } : State) hhrdf]
  rfl

/-- HW.TXL to an empty DSP side: the word is transferred (R128, R130). -/
theorem exec_hwTxl_of_idle {s : State} (b : Byte) (hoff : s.bootMode = .off) (htxde : s.txde = true)
    (hhrdf : s.hrdf = false) :
    exec (.hwTxl b) s = .next { s with
      txl := b, hrx := joinBytes s.txh b, hsr := putBit s.hsr 0 true
      outs := s.outs ++ requestIf s.hrie .hostReceiveData } := by
  have hkeep : putBit (putBit s.isr 1 false) 1 true = s.isr := by rw [putBit_putBit, putBit_self _ _ _ htxde]
  rw [exec_hwTxl_off b s hoff, writeTxl, if_pos htxde, setTXDE_false_empty ({ s with txl := b } : State) hhrdf,
    xferHostToDsp_eq]
  simp only [storeTXDE, hkeep]
  rfl

/-! ## The accesses of the DSP-to-host path -/

/-- DW.HTRX behind a full host side: the word is staged, over an older one if there is one (R169, R126). -/
theorem exec_dwHtrx_of_full {s : State} (w : Word) (hrxdf : s.rxdf = true) :
    exec (.dwHtrx w) s = .next { s with htx := w, hsr := putBit s.hsr 1 false } := by
  show Host.Outcome.next (setHTDE false { s with htx := w }) = _
  rw [setHTDE_false_full ({ s with htx := w } : State) hrxdf]
  rfl

/-- DW.HTRX to an empty host side: the word is transferred (R126, R131). -/
theorem exec_dwHtrx_of_empty {s : State} (w : Word) (hrxdf : s.rxdf = false) :
    exec (.dwHtrx w) s = .next { s with
      htx := w, rxh := highByte w, rxl := lowByte w, isr := putBit s.isr 0 true, hsr := putBit s.hsr 1 true
      outs := s.outs ++ requestIf s.htie .hostTransmitData } := by
  show Host.Outcome.next (setHTDE false { s with htx := w }) = _
  rw [setHTDE_false_empty ({ s with htx := w } : State) hrxdf, xferDspToHost_eq]
  simp only [storeHTDE, putBit_putBit]
  rfl

/-- HR.RXH with its flag set (R191). -/
theorem exec_hrRxh_of_rxdf {s : State} (hrxdf : s.rxdf = true) :
    exec .hrRxh s = .next { s with result := some (.byte s.rxh) } := by
  have hread : readValue .hrRxh s = some (.byte s.rxh) := by simp [readValue, hrxdf]
  exact exec_read rfl hread (fun hc => hc.elim (fun ⟨h, _⟩ => nomatch h) (fun ⟨h, _⟩ => nomatch h))

/-! ## The two tables -/

/-- Settles O28: in each stable state the three accesses are the updates above, their flag stores written as masks. -/
theorem hostToDspPathTable : Obligations.HostToDspPathTable := by
  intro s b
  refine ⟨fun htxde hhrdf => ⟨fun hoff => exec_hwTxh_of_txde b hoff htxde, fun hoff => ?idleTxl, ?idleRead⟩,
    fun htxde hhrdf => ⟨fun hoff => exec_hwTxh_of_txde b hoff htxde, fun hoff => ?oneTxl, ?oneRead⟩,
    fun htxde hhrdf => ⟨fun hoff => exec_hwTxh_of_full b hoff htxde, fun hoff => exec_hwTxl_of_full b hoff htxde,
      ?fullRead⟩⟩
  case idleTxl =>
    rw [exec_hwTxl_of_idle b hoff htxde hhrdf, hsr_setHRDF_eq]
    rfl
  case idleRead => exact exec_drHtrx_of_empty s hhrdf
  case oneTxl => rw [exec_hwTxl_of_one b hoff htxde hhrdf, isr_clearTXDE_eq]
  case oneRead => rw [exec_drHtrx_of_one hhrdf htxde, hsr_clearHRDF_eq]
  case fullRead =>
    rw [exec_drHtrx_of_full hhrdf htxde, isr_setTXDE_eq]
    rfl

/-- Settles O29: in each stable state the three accesses are the updates above, their flag stores written as masks. -/
theorem dspToHostPathTable : Obligations.DspToHostPathTable := by
  intro s w
  refine ⟨fun hhtde hrxdf => ⟨?idleWrite, exec_hrRxh_of_empty s hrxdf, exec_hrRxl_of_empty s hrxdf⟩,
    fun hhtde hrxdf => ⟨?oneWrite, exec_hrRxh_of_rxdf hrxdf, ?oneRead⟩,
    fun hhtde hrxdf => ⟨?fullWrite, exec_hrRxh_of_rxdf hrxdf, ?fullRead⟩⟩
  case idleWrite =>
    rw [exec_dwHtrx_of_empty w hrxdf, putBit_self s.hsr 1 true hhtde, isr_setRXDF_eq]
    rfl
  case oneWrite => rw [exec_dwHtrx_of_full w hrxdf, hsr_clearHTDE_eq]
  case oneRead => rw [exec_hrRxl_of_one hrxdf hhtde, isr_clearRXDF_eq]
  case fullWrite => rw [exec_dwHtrx_of_full w hrxdf, putBit_self s.hsr 1 false hhtde]
  case fullRead =>
    rw [exec_hrRxl_of_full hrxdf hhtde, hsr_setHTDE_eq]
    rfl

/-! ## Words along the host-to-DSP path -/

/-- A word the host writes to the idle path is on the DSP side at once. -/
theorem sendWord_idle {s : State} (h l : Byte) (hoff : s.bootMode = .off) (htxde : s.txde = true)
    (hhrdf : s.hrdf = false) : ∃ t, execAll [.hwTxh h, .hwTxl l] s = .next t ∧ t.bootMode = .off ∧ t.txde = true ∧
      t.hrdf = true ∧ t.hrx = joinBytes h l := by
  rw [execAll_cons_of_next (exec_hwTxh_of_txde h hoff htxde),
    execAll_cons_of_next (exec_hwTxl_of_idle l (s := { s with txh := h }) hoff htxde hhrdf)]
  refine ⟨_, rfl, hoff, htxde, ?_, rfl⟩
  simp only [State.hrdf, getLsbD_putBit]
  rfl

/-- A word the host writes behind another one is staged. -/
theorem sendWord_one {s : State} (h l : Byte) (hoff : s.bootMode = .off) (htxde : s.txde = true)
    (hhrdf : s.hrdf = true) : ∃ t, execAll [.hwTxh h, .hwTxl l] s = .next t ∧ t.bootMode = .off ∧ t.txde = false ∧
      t.hrdf = true ∧ t.hrx = s.hrx ∧ t.txh = h ∧ t.txl = l := by
  rw [execAll_cons_of_next (exec_hwTxh_of_txde h hoff htxde),
    execAll_cons_of_next (exec_hwTxl_of_one l (s := { s with txh := h }) hoff htxde hhrdf)]
  refine ⟨_, rfl, hoff, ?_, hhrdf, rfl, rfl, rfl⟩
  simp only [State.txde, getLsbD_putBit]
  rfl

/-- A word the host writes to the full path is dropped. -/
theorem sendWord_full {s : State} (h l : Byte) (hoff : s.bootMode = .off) (htxde : s.txde = false) :
    execAll [.hwTxh h, .hwTxl l] s = .next s := by
  rw [execAll_cons_of_next (exec_hwTxh_of_full h hoff htxde), execAll_cons_of_next (exec_hwTxl_of_full l hoff htxde)]
  rfl

/-- The DSP reads the first of two words, and the second moves up. -/
theorem takeWord_full {s : State} (hhrdf : s.hrdf = true) (htxde : s.txde = false) :
    ∃ t, exec .drHtrx s = .next t ∧ t.result = some (.word s.hrx) ∧ t.hrx = joinBytes s.txh s.txl ∧
      t.txde = true ∧ t.hrdf = true := by
  refine ⟨_, exec_drHtrx_of_full hhrdf htxde, rfl, rfl, ?_, hhrdf⟩
  simp only [State.txde, getLsbD_putBit]
  rfl

/-- The DSP reads the only word, and the path is idle. -/
theorem takeWord_one {s : State} (hhrdf : s.hrdf = true) (htxde : s.txde = true) :
    ∃ t, exec .drHtrx s = .next t ∧ t.result = some (.word s.hrx) ∧ t.txde = true ∧ t.hrdf = false := by
  refine ⟨_, exec_drHtrx_of_one hhrdf htxde, rfl, htxde, ?_⟩
  simp only [State.hrdf, getLsbD_putBit]
  rfl

/-- Settles O31: the first word goes through, the second is staged, the third dropped; then three reads. -/
theorem hostWordsReachTheDspInOrder : Obligations.HostWordsReachTheDspInOrder := by
  intro s h1 l1 h2 l2 h3 l3 hoff htxde hhrdf
  obtain ⟨a, ha, hoffA, htxdeA, hhrdfA, hhrxA⟩ := sendWord_idle h1 l1 hoff htxde hhrdf
  obtain ⟨t, ht, hoffT, htxdeT, hhrdfT, hhrxT, htxhT, htxlT⟩ := sendWord_one h2 l2 hoffA htxdeA hhrdfA
  obtain ⟨t1, ht1, hres1, hhrx1, htxde1, hhrdf1⟩ := takeWord_full hhrdfT htxdeT
  obtain ⟨t2, ht2, hres2, htxde2, hhrdf2⟩ := takeWord_one hhrdf1 htxde1
  refine ⟨t, t1, t2, _, ?run, ht1, ?firstWord, ht2, ?secondWord, exec_drHtrx_of_empty t2 hhrdf2, rfl, htxde2, hhrdf2⟩
  case run =>
    calc execAll ([.hwTxh h1, .hwTxl l1] ++ ([.hwTxh h2, .hwTxl l2] ++ [.hwTxh h3, .hwTxl l3])) s
        = execAll ([.hwTxh h2, .hwTxl l2] ++ [.hwTxh h3, .hwTxl l3]) a := execAll_append_of_next ha
      _ = execAll [.hwTxh h3, .hwTxl l3] t := execAll_append_of_next ht
      _ = .next t := sendWord_full h3 l3 hoffT htxdeT
  case firstWord =>
    rw [hres1, hhrxT, hhrxA]
    rfl
  case secondWord =>
    rw [hres2, hhrx1, htxhT, htxlT]
    rfl

/-! ## Words along the DSP-to-host path -/

/-- A word the DSP writes to the idle path is on the host side at once. -/
theorem putWord_idle {s : State} (w : Word) (hrxdf : s.rxdf = false) :
    ∃ t, exec (.dwHtrx w) s = .next t ∧ t.htde = true ∧ t.rxdf = true ∧ t.rxh = highByte w ∧ t.rxl = lowByte w := by
  refine ⟨_, exec_dwHtrx_of_empty w hrxdf, ?_, ?_, rfl, rfl⟩
  · simp only [State.htde, getLsbD_putBit]
    rfl
  · simp only [State.rxdf, getLsbD_putBit]
    rfl

/-- A word the DSP writes behind another one is staged, over what was staged before. -/
theorem putWord_full {s : State} (w : Word) (hrxdf : s.rxdf = true) :
    ∃ t, exec (.dwHtrx w) s = .next t ∧ t.htde = false ∧ t.rxdf = true ∧ t.rxh = s.rxh ∧ t.rxl = s.rxl ∧ t.htx = w := by
  refine ⟨_, exec_dwHtrx_of_full w hrxdf, ?_, hrxdf, rfl, rfl, rfl⟩
  simp only [State.htde, getLsbD_putBit]
  rfl

/-- The host reads the two bytes of the first of two words, and the second moves up. -/
theorem fetchWord_full {s : State} (hrxdf : s.rxdf = true) (hhtde : s.htde = false) :
    ∃ a b, exec .hrRxh s = .next a ∧ a.result = some (.byte s.rxh) ∧
      exec .hrRxl a = .next b ∧ b.result = some (.byte s.rxl) ∧
      b.htde = true ∧ b.rxdf = true ∧ b.rxh = highByte s.htx ∧ b.rxl = lowByte s.htx := by
  refine ⟨_, _, exec_hrRxh_of_rxdf hrxdf, rfl,
    exec_hrRxl_of_full (s := { s with result := some (.byte s.rxh) }) hrxdf hhtde, rfl, ?_, hrxdf, rfl, rfl⟩
  simp only [State.htde, getLsbD_putBit]
  rfl

/-- The host reads the two bytes of the only word, and the path is idle. -/
theorem fetchWord_one {s : State} (hrxdf : s.rxdf = true) (hhtde : s.htde = true) :
    ∃ a b, exec .hrRxh s = .next a ∧ a.result = some (.byte s.rxh) ∧
      exec .hrRxl a = .next b ∧ b.result = some (.byte s.rxl) ∧ b.htde = true ∧ b.rxdf = false := by
  refine ⟨_, _, exec_hrRxh_of_rxdf hrxdf, rfl,
    exec_hrRxl_of_one (s := { s with result := some (.byte s.rxh) }) hrxdf hhtde, rfl, hhtde, ?_⟩
  simp only [State.rxdf, getLsbD_putBit]
  rfl

/-- Settles O32: the first word goes through, the second is staged and the third replaces it; then the host's reads. -/
theorem dspWordsReachTheHostAndOneIsLost : Obligations.DspWordsReachTheHostAndOneIsLost := by
  intro s w1 w2 w3 _ hrxdf
  obtain ⟨p, hp, _, hrxdfP, hrxhP, hrxlP⟩ := putWord_idle w1 hrxdf
  obtain ⟨q, hq, _, hrxdfQ, hrxhQ, hrxlQ, _⟩ := putWord_full w2 hrxdfP
  obtain ⟨t, ht, hhtdeT, hrxdfT, hrxhT, hrxlT, hhtxT⟩ := putWord_full w3 hrxdfQ
  obtain ⟨a, b, ha, hresA, hb, hresB, hhtdeB, hrxdfB, hrxhB, hrxlB⟩ := fetchWord_full hrxdfT hhtdeT
  obtain ⟨c, d, hc, hresC, hd, hresD, hhtdeD, hrxdfD⟩ := fetchWord_one hrxdfB hhtdeB
  refine ⟨t, a, b, c, d, _, ?run, ha, ?high1, hb, ?low1, hc, ?high3, hd, ?low3, exec_hrRxh_of_empty d hrxdfD, rfl,
    hhtdeD, hrxdfD⟩
  case run => rw [execAll_cons_of_next hp, execAll_cons_of_next hq, execAll_cons_of_next ht, execAll]
  case high1 =>
    rw [hresA, hrxhT, hrxhQ, hrxhP]
    rfl
  case low1 =>
    rw [hresB, hrxlT, hrxlQ, hrxlP]
    rfl
  case high3 =>
    rw [hresC, hrxhB, hhtxT]
    rfl
  case low3 =>
    rw [hresD, hrxlB, hhtxT]
    rfl

end Sys2Proof.Machine
end

section
/-! SUPPORT. The bootstrap loader (43_bootstrap_loader.md): the two lane writes, a streamed image, and what the mode does
not touch. -/

namespace Sys2Proof.Machine

/-- The two lanes of a word are different lanes. -/
theorem laneLow_ne_laneHigh (k n : Nat) : laneLow k ≠ laneHigh n := by
  unfold laneLow laneHigh
  omega

/-- Settles O34: the high lane is written, and the output reads the low one as it was (R147). -/
theorem bootWriteOfHighByte : Obligations.BootWriteOfHighByte := by
  intro s d hactive hlimit
  refine ⟨_, exec_hwTxh_active d s hactive hlimit, ?_, fun a => Memory.read_write _ _ a d⟩
  rw [writeLane_eq, Memory.read_write_same, Memory.read_write_other _ _ _ _ (laneLow_ne_laneHigh _ _)]

/-- Settles O35: the low lane is written, the output reads the high one as it was, and the offset advances (R148,
R149). -/
theorem bootWriteOfLowByte : Obligations.BootWriteOfLowByte := by
  intro s d hactive hlimit
  refine ⟨_, exec_hwTxl_active d s hactive hlimit, ?_, fun a => Memory.read_write _ _ a d⟩
  have hend : (s.bootOffset + 1 = Layout.bootLimit) = (s.bootOffset = 0x7ff) :=
    propext (Nat.succ_inj (b := 0x7ff))
  rw [bootAdvance, writeLane_eq, Memory.read_write_same,
    Memory.read_write_other _ _ _ _ (laneLow_ne_laneHigh _ _).symm]
  simp only [hend, hactive]

/-! ## A streamed image -/

/-- The state t after an image has been loaded from the state s (R147 to R149). -/
def Loaded (image : List (Byte × Byte)) (s t : State) : Prop :=
  t.bootOffset = s.bootOffset + image.length ∧
  (t.bootMode = .off ↔ s.bootOffset + image.length = 0x800) ∧
  (∀ (j : Nat) (hj : j < image.length),
    Memory.read t.pmem (laneHigh (s.bootOffset + j)) = some image[j].1 ∧
    Memory.read t.pmem (laneLow (s.bootOffset + j)) = some image[j].2) ∧
  (∀ a, a < laneHigh s.bootOffset ∨ laneHigh (s.bootOffset + image.length) ≤ a →
    Memory.read t.pmem a = Memory.read s.pmem a) ∧
  t.txh = s.txh ∧ t.txl = s.txl ∧ t.isr = s.isr ∧ t.hsr = s.hsr

/-- Nothing loaded. -/
theorem loaded_nil {s : State} (hmode : s.bootMode = .off ↔ s.bootOffset = 0x800) : Loaded [] s s :=
  ⟨rfl, hmode, fun _ hj => absurd hj (Nat.not_lt_zero _), fun _ _ => rfl, rfl, rfl, rfl, rfl⟩

/-- One pair of bytes loads one word. -/
theorem loaded_pair {s : State} (p : Byte × Byte) (hactive : s.bootMode = .active) (hlimit : s.bootOffset < 0x800) :
    ∃ t, execAll [.hwTxh p.1, .hwTxl p.2] s = .next t ∧ Loaded [p] s t := by
  obtain ⟨u, hu, heq, hreadU⟩ := bootWriteOfHighByte s p.1 hactive hlimit
  have hoffU : u.bootOffset = s.bootOffset := by rw [heq]
  obtain ⟨t, ht, heqT, hreadT⟩ := bootWriteOfLowByte u p.2 (by rw [heq, hactive]) (by rw [hoffU]; exact hlimit)
  rw [hoffU] at hreadT
  have hread (a : Nat) : Memory.read t.pmem a = if a = laneLow s.bootOffset then some p.2 else
      if a = laneHigh s.bootOffset then some p.1 else Memory.read s.pmem a := by
    rw [hreadT, hreadU]
  have hmode : t.bootMode = if s.bootOffset = 0x7ff then .off else .active := by rw [heqT, hoffU]
  refine ⟨t, ?run, ?offset, ?mode, ?word, ?frame, ?_, ?_, ?_, ?_⟩
  case run =>
    rw [execAll_cons_of_next hu, execAll_cons_of_next ht]
    rfl
  case offset =>
    rw [heqT, hoffU]
    rfl
  case mode =>
    rw [hmode, List.length_singleton]
    split
    · next hend => exact ⟨fun _ => by omega, fun _ => rfl⟩
    · next hend => exact ⟨fun hoff => (nomatch hoff), fun hlast => absurd hlast (by omega)⟩
  case word =>
    intro j hj
    obtain rfl : j = 0 := Nat.lt_one_iff.mp hj
    simp [hread, (laneLow_ne_laneHigh _ _).symm]
  case frame =>
    intro a ha
    simp only [laneHigh, List.length_singleton] at ha
    rw [hread, if_neg (by unfold laneLow; omega), if_neg (by unfold laneHigh; omega)]
  all_goals rw [heqT, heq]

/-- A pair, then the rest of the image. -/
theorem Loaded.append {p : Byte × Byte} {image : List (Byte × Byte)} {s u t : State} (hp : Loaded [p] s u)
    (hi : Loaded image u t) : Loaded (p :: image) s t := by
  obtain ⟨hoffU, _, hwordU, hframeU, htxhU, htxlU, hisrU, hhsrU⟩ := hp
  obtain ⟨hoffT, hmodeT, hwordT, hframeT, htxhT, htxlT, hisrT, hhsrT⟩ := hi
  simp only [List.length_singleton] at hoffU hframeU
  rw [hoffU] at hoffT hmodeT hwordT hframeT
  have hlen : s.bootOffset + (p :: image).length = s.bootOffset + 1 + image.length := by
    rw [List.length_cons]
    omega
  refine ⟨hoffT.trans hlen.symm, by rw [hlen]; exact hmodeT, ?word, ?frame, htxhT.trans htxhU, htxlT.trans htxlU,
    hisrT.trans hisrU, hhsrT.trans hhsrU⟩
  case word =>
    intro j hj
    cases j with
    | zero =>
      obtain ⟨hhigh, hlow⟩ := hwordU 0 (by simp)
      rw [hframeT _ (.inl (by unfold laneHigh; omega)), hframeT _ (.inl (by unfold laneHigh laneLow; omega))]
      exact ⟨hhigh, hlow⟩
    | succ j =>
      rw [← Nat.add_assoc, Nat.add_right_comm]
      exact hwordT j (by simpa using hj)
  case frame =>
    intro a ha
    rw [hlen] at ha
    unfold laneHigh at ha
    rw [hframeT a (by unfold laneHigh; omega), hframeU a (by unfold laneHigh; omega)]

/-- A streamed image is loaded, from any offset the bootstrap can be at. -/
theorem loaded_of_stream (image : List (Byte × Byte)) (s : State) (hmode : s.bootMode = .off ↔ s.bootOffset = 0x800)
    (hlen : s.bootOffset + image.length ≤ 0x800) :
    ∃ t, execAll (image.flatMap (fun p => [.hwTxh p.1, .hwTxl p.2])) s = .next t ∧ Loaded image s t := by
  induction image generalizing s with
  | nil => exact ⟨s, rfl, loaded_nil hmode⟩
  | cons p image ih =>
    rw [List.length_cons] at hlen
    have hactive : s.bootMode = .active := by
      cases hm : s.bootMode
      · rfl
      · have hend := hmode.mp hm
        omega
    obtain ⟨u, hu, hpair⟩ := loaded_pair p hactive (by omega)
    have ⟨hoffU, hmodeU, _⟩ := hpair
    simp only [List.length_singleton] at hoffU hmodeU
    obtain ⟨t, ht, hrest⟩ := ih u (by rw [hmodeU, hoffU]) (by omega)
    refine ⟨t, ?_, hpair.append hrest⟩
    rw [List.flatMap_cons, execAll_append_of_next hu, ht]

/-- Settles O37, by induction on the image. -/
theorem bootstrapLoadsTheStreamedImage : Obligations.BootstrapLoadsTheStreamedImage := by
  intro image s hactive hlimit hlen
  exact loaded_of_stream image s (by simp [hactive]; omega) hlen

/-! ## What the mode does not touch (R146) -/

/-- An event has one next state. -/
theorem next_unique {i : Instr} {s t u : State} (ht : exec i s = .next t) (hu : exec i s = .next u) : t = u :=
  Host.Outcome.next.inj (ht.symm.trans hu)

/-- HR.INVALID in its range (R195). -/
theorem exec_hrInvalid {o : Byte} (ho : isInvalidOffset o = true) (s : State) :
    exec (.hrInvalid o) s = .next (withResult (.byte 0xff) s) := if_pos ho

/-- HW.INVALID in its range (R203). -/
theorem exec_hwInvalid {o : Byte} (b : Byte) (ho : isInvalidOffset o = true) (s : State) :
    exec (.hwInvalid o b) s = .next (emit (.diag (.invalidOffset o)) s) := if_pos ho

/-- DR.P in its range (R171). -/
theorem exec_drP {a : Word} (ha : isPlainAddr a = true) (s : State) :
    exec (.drP a) s = .next (withResult (.word (readP (dspIndex a) s)) s) := if_pos ha

/-- HR.RXL does the same with the mode OFF. -/
theorem hrRxl_of_bootOff {s t : State} (h : exec .hrRxl s = .next t) :
    exec .hrRxl { s with bootMode := .off } = .next { t with bootMode := .off } := by
  cases hrxdf : s.rxdf
  · obtain rfl := next_unique (exec_hrRxl_of_empty s hrxdf) h
    exact exec_hrRxl_of_empty { s with bootMode := .off } hrxdf
  · cases hhtde : s.htde
    · obtain rfl := next_unique (exec_hrRxl_of_full hrxdf hhtde) h
      exact exec_hrRxl_of_full (s := { s with bootMode := .off }) hrxdf hhtde
    · obtain rfl := next_unique (exec_hrRxl_of_one hrxdf hhtde) h
      exact exec_hrRxl_of_one (s := { s with bootMode := .off }) hrxdf hhtde

/-- DR.HTRX does the same with the mode OFF. -/
theorem drHtrx_of_bootOff {s t : State} (h : exec .drHtrx s = .next t) :
    exec .drHtrx { s with bootMode := .off } = .next { t with bootMode := .off } := by
  cases hhrdf : s.hrdf
  · obtain rfl := next_unique (exec_drHtrx_of_empty s hhrdf) h
    exact exec_drHtrx_of_empty { s with bootMode := .off } hhrdf
  · cases htxde : s.txde
    · obtain rfl := next_unique (exec_drHtrx_of_full hhrdf htxde) h
      exact exec_drHtrx_of_full (s := { s with bootMode := .off }) hhrdf htxde
    · obtain rfl := next_unique (exec_drHtrx_of_one hhrdf htxde) h
      exact exec_drHtrx_of_one (s := { s with bootMode := .off }) hhrdf htxde

/-- DW.HTRX does the same with the mode OFF. -/
theorem dwHtrx_of_bootOff {s t : State} {w : Word} (h : exec (.dwHtrx w) s = .next t) :
    exec (.dwHtrx w) { s with bootMode := .off } = .next { t with bootMode := .off } := by
  cases hrxdf : s.rxdf
  · obtain rfl := next_unique (exec_dwHtrx_of_empty w hrxdf) h
    exact exec_dwHtrx_of_empty (s := { s with bootMode := .off }) w hrxdf
  · obtain rfl := next_unique (exec_dwHtrx_of_full w hrxdf) h
    exact exec_dwHtrx_of_full (s := { s with bootMode := .off }) w hrxdf

/-- DW.P does the same with the mode OFF. -/
theorem dwP_of_bootOff {s t : State} {a w : Word} (h : exec (.dwP a w) s = .next t) :
    exec (.dwP a w) { s with bootMode := .off } = .next { t with bootMode := .off } := by
  have ha : isPlainAddr a = true := wellFormed_of_exec h
  rw [exec_dwP_of_isPlainAddr a w _ ha] at h ⊢
  cases h
  cases hclass : s.cfg.dspMap.get (dspIndex a) with
  | plain m =>
    rw [writePlain_of_plain a w m s hclass, writePlain_of_plain a w m { s with bootMode := .off } hclass, pSet_eq,
      pSet_eq]
  | discard =>
    rw [writePlain_of_discard a w s hclass, writePlain_of_discard a w { s with bootMode := .off } hclass]
    rfl

/-- An event that does not ask for the mode does the same with the mode OFF. -/
theorem exec_of_bootOff {i : Instr} {s t : State} (hi : i ≠ .reset) (htxh : ∀ b, i ≠ .hwTxh b)
    (htxl : ∀ b, i ≠ .hwTxl b) (hicr : ∀ b, b.getLsbD 3 = true → i ≠ .hwIcr b) (h : exec i s = .next t) :
    exec i { s with bootMode := .off } = .next { t with bootMode := .off } := by
  cases i with
  | hrIcr | hrCvr | hrIsr | hrIvr | hrUnused4 | hrRsvd5 | hrRxh | hwIsr | hwIvr | hwUnused4 | hwRsvd5 | drPbc | drHcr
  | drBcr | drIpr | drPcd | drHsr | dwIpr | dwHsr =>
    cases h
    rfl
  | hrInvalid o =>
    have ho : isInvalidOffset o = true := wellFormed_of_exec h
    obtain rfl := next_unique (exec_hrInvalid ho s) h
    exact exec_hrInvalid ho _
  | hwInvalid o b =>
    have ho : isInvalidOffset o = true := wellFormed_of_exec h
    obtain rfl := next_unique (exec_hwInvalid b ho s) h
    exact exec_hwInvalid b ho _
  | drP a =>
    have ha : isPlainAddr a = true := wellFormed_of_exec h
    obtain rfl := next_unique (exec_drP ha s) h
    exact exec_drP ha _
  | hwIcr b =>
    have hb : ¬ b.getLsbD 3 = true := fun hb => hicr b hb rfl
    rw [exec_hwIcr_of_not_abort b _ (fun hab => hb hab.2), icrSet_eq] at h ⊢
    cases h
    rfl
  | hwCvr b =>
    rw [exec_hwCvr, cvrSet_eq] at h ⊢
    cases h
    rfl
  | dwHcr w =>
    rw [exec_dwHcr, hcrSet_eq] at h ⊢
    cases h
    rfl
  | dwPbc w =>
    rw [exec_dwPbc, pbcSet, pSet_eq] at h ⊢
    cases h
    rfl
  | dwBcr w =>
    rw [exec_dwBcr, bcrSet, pSet_eq] at h ⊢
    cases h
    rfl
  | dwPcd w =>
    rw [exec_dwPcd, pcdSet, pSet_eq] at h ⊢
    cases h
    rfl
  | hrRxl => exact hrRxl_of_bootOff h
  | drHtrx => exact drHtrx_of_bootOff h
  | dwHtrx w => exact dwHtrx_of_bootOff h
  | dwP a w => exact dwP_of_bootOff h
  | hwTxh b => exact absurd rfl (htxh b)
  | hwTxl b => exact absurd rfl (htxl b)
  | reset => exact absurd rfl hi

/-- Settles O38: of the three things an event can do to the bootstrap only "nothing" is left, and no other meaning asks
for the mode. -/
theorem bootstrapModeChangesThreeWritesOnly : Obligations.BootstrapModeChangesThreeWritesOnly := by
  intro i s t hi htxh htxl hicr h
  obtain ⟨hmode, hoffset⟩ : t.bootMode = s.bootMode ∧ t.bootOffset = s.bootOffset := by
    rcases boot_of_effect (effect_of_exec i s t h) hi with hsame | ⟨b, hb, _⟩ | ⟨b, hb, hbit, _⟩
    · exact hsame
    · exact absurd hb (htxl b)
    · exact absurd hb (hicr b hbit)
  exact ⟨hmode, hoffset, exec_of_bootOff hi htxh htxl hicr h⟩

end Sys2Proof.Machine
end

section
/-! SUPPORT. The outputs of an event (00_scope.md R6), said once as a function of the event and the state, and the claims
on requests and diagnostics. -/

namespace Sys2Proof.Machine

/-! ## What each event emits -/

/-- The outputs an event adds when it completes, in order. -/
def emitted (i : Instr) (s : State) : List Output :=
  match i with
  | .hwIcr b =>
    if s.bootMode = .active ∧ b.getLsbD 3 = true then [.pcSet 0] else reservedOuts .icr Layout.maskICR b
  | .hwCvr b => reservedOuts .cvr Layout.maskCVR b ++ requestIf (b.getLsbD 7 && s.hcie) .hostCommand
  | .hwIsr _ => [.diag (.readOnly .isr)]
  | .hwUnused4 _ => [.diag (.unusedOffset 0x04)]
  | .hwRsvd5 _ => [.diag (.reservedOffset 0x05)]
  | .hwInvalid o _ => [.diag (.invalidOffset o)]
  | .hwTxh b =>
    if s.bootMode = .active then [.pmem s.bootOffset (some b) (Memory.read s.pmem (laneLow s.bootOffset))] else []
  | .hwTxl b =>
    if s.bootMode = .active then [.pmem s.bootOffset (Memory.read s.pmem (laneHigh s.bootOffset)) (some b)]
    else requestIf (s.txde && !s.hrdf && s.hrie) .hostReceiveData
  | .hrRxl => requestIf (s.rxdf && !s.htde && s.htie) .hostTransmitData
  | .drHtrx => requestIf (s.hrdf && !s.txde && s.hrie) .hostReceiveData
  | .dwHtrx _ => requestIf (!s.rxdf && s.htie) .hostTransmitData
  | .dwHcr w => reservedOuts .hcr Layout.maskHCR w
  | .dwPbc w => reservedOuts .pbc Layout.maskPBC w
  | .dwBcr w => reservedOuts .bcr s.cfg.maskBcr w
  | .dwPcd w => reservedOuts .pcd s.cfg.maskPcd w ++ [.portC (w &&& s.cfg.maskPcd)]
  | .dwHsr _ => [.diag (.readOnly .hsr)]
  | .dwP a w =>
    match s.cfg.dspMap.get (dspIndex a) with
    | .plain m => reservedOuts (.p (dspIndex a)) m w
    | .discard => [.diag (.reservedAddress a)]
  | .hrIcr | .hrCvr | .hrIsr | .hrIvr | .hrUnused4 | .hrRsvd5 | .hrRxh | .hrInvalid _ | .hwIvr _
  | .drPbc | .drHcr | .drBcr | .drIpr | .drPcd | .drHsr | .drP _ | .dwIpr _ | .reset => []

/-- The outputs of the two bootstrap-dependent data writes. -/
theorem outs_of_hwTx {s t : State} {b : Byte} :
    (exec (.hwTxh b) s = .next t → t.outs = s.outs ++ emitted (.hwTxh b) s) ∧
    (exec (.hwTxl b) s = .next t → t.outs = s.outs ++ emitted (.hwTxl b) s) := by
  cases hm : s.bootMode with
  | active =>
    constructor
    · intro h
      have ⟨_, hlimit⟩ := canRun_of_exec h
      obtain ⟨u, hu, heq, _⟩ := bootWriteOfHighByte s b hm (hlimit ⟨b, .inl rfl⟩ hm)
      obtain rfl := next_unique hu h
      rw [heq]
      simp [emitted, hm]
    · intro h
      have ⟨_, hlimit⟩ := canRun_of_exec h
      obtain ⟨u, hu, heq, _⟩ := bootWriteOfLowByte s b hm (hlimit ⟨b, .inr rfl⟩ hm)
      obtain rfl := next_unique hu h
      rw [heq]
      simp [emitted, hm]
  | off =>
    cases htxde : s.txde
    · constructor
      · intro h
        obtain rfl := next_unique (exec_hwTxh_of_full b hm htxde) h
        simp [emitted, hm]
      · intro h
        obtain rfl := next_unique (exec_hwTxl_of_full b hm htxde) h
        simp [emitted, hm, htxde, requestIf]
    · constructor
      · intro h
        obtain rfl := next_unique (exec_hwTxh_of_txde b hm htxde) h
        simp [emitted, hm]
      · intro h
        cases hhrdf : s.hrdf
        · obtain rfl := next_unique (exec_hwTxl_of_idle b hm htxde hhrdf) h
          simp [emitted, hm, htxde, hhrdf]
        · obtain rfl := next_unique (exec_hwTxl_of_one b hm htxde hhrdf) h
          simp [emitted, hm, htxde, hhrdf, requestIf]

/-- The outputs of the three accesses that move or take a word. -/
theorem outs_of_transfer {s t : State} :
    (exec .hrRxl s = .next t → t.outs = s.outs ++ emitted .hrRxl s) ∧
    (exec .drHtrx s = .next t → t.outs = s.outs ++ emitted .drHtrx s) ∧
    (∀ w, exec (.dwHtrx w) s = .next t → t.outs = s.outs ++ emitted (.dwHtrx w) s) := by
  refine ⟨fun h => ?hrRxl, fun h => ?drHtrx, fun w h => ?dwHtrx⟩
  case hrRxl =>
    cases hrxdf : s.rxdf
    · obtain rfl := next_unique (exec_hrRxl_of_empty s hrxdf) h
      simp [emitted, hrxdf, requestIf]
    · cases hhtde : s.htde
      · obtain rfl := next_unique (exec_hrRxl_of_full hrxdf hhtde) h
        simp [emitted, hrxdf, hhtde]
      · obtain rfl := next_unique (exec_hrRxl_of_one hrxdf hhtde) h
        simp [emitted, hhtde, requestIf]
  case drHtrx =>
    cases hhrdf : s.hrdf
    · obtain rfl := next_unique (exec_drHtrx_of_empty s hhrdf) h
      simp [emitted, hhrdf, requestIf]
    · cases htxde : s.txde
      · obtain rfl := next_unique (exec_drHtrx_of_full hhrdf htxde) h
        simp [emitted, hhrdf, htxde]
      · obtain rfl := next_unique (exec_drHtrx_of_one hhrdf htxde) h
        simp [emitted, htxde, requestIf]
  case dwHtrx =>
    cases hrxdf : s.rxdf
    · obtain rfl := next_unique (exec_dwHtrx_of_empty w hrxdf) h
      simp [emitted, hrxdf]
    · obtain rfl := next_unique (exec_dwHtrx_of_full w hrxdf) h
      simp [emitted, hrxdf, requestIf]

/-- Every event that completes adds its outputs, after those there are. -/
theorem outs_of_exec {i : Instr} {s t : State} (h : exec i s = .next t) : t.outs = s.outs ++ emitted i s := by
  cases i with
  | hrIcr | hrCvr | hrIsr | hrIvr | hrUnused4 | hrRsvd5 | hrRxh | hwIvr | drPbc | drHcr | drBcr | drIpr | drPcd | drHsr
  | dwIpr | reset =>
    cases h
    exact (List.append_nil _).symm
  | hwIsr | hwUnused4 | hwRsvd5 | dwHsr =>
    cases h
    rfl
  | hrInvalid o =>
    obtain rfl := next_unique (exec_hrInvalid (wellFormed_of_exec h) s) h
    exact (List.append_nil _).symm
  | drP a =>
    obtain rfl := next_unique (exec_drP (wellFormed_of_exec h) s) h
    exact (List.append_nil _).symm
  | hwInvalid o b =>
    obtain rfl := next_unique (exec_hwInvalid b (wellFormed_of_exec h) s) h
    rfl
  | hwIcr b =>
    by_cases hab : s.bootMode = .active ∧ b.getLsbD 3 = true
    · rw [exec_hwIcr_of_abort b s hab, bootAbort_eq] at h
      cases h
      rw [emitted, if_pos hab]
    · rw [exec_hwIcr_of_not_abort b s hab, icrSet_eq] at h
      cases h
      rw [emitted, if_neg hab]
  | hwCvr b =>
    rw [exec_hwCvr, cvrSet_eq] at h
    cases h
    exact List.append_assoc _ _ _
  | dwHcr w =>
    rw [exec_dwHcr, hcrSet_eq] at h
    cases h
    rfl
  | dwPbc w =>
    rw [exec_dwPbc, pbcSet, pSet_eq] at h
    cases h
    rfl
  | dwBcr w =>
    rw [exec_dwBcr, bcrSet, pSet_eq] at h
    cases h
    rfl
  | dwPcd w =>
    rw [exec_dwPcd, pcdSet, pSet_eq] at h
    cases h
    exact List.append_assoc _ _ _
  | dwP a w =>
    rw [exec_dwP_of_isPlainAddr a w s (wellFormed_of_exec h)] at h
    cases h
    cases hclass : s.cfg.dspMap.get (dspIndex a) with
    | plain m =>
      rw [writePlain_of_plain a w m s hclass, pSet_eq]
      simp only [emitted, hclass]
    | discard =>
      rw [writePlain_of_discard a w s hclass]
      simp only [emitted, hclass, emit_outs]
  | hwTxh b => exact outs_of_hwTx.1 h
  | hwTxl b => exact outs_of_hwTx.2 h
  | hrRxl =>
    obtain ⟨hrxl, _⟩ := outs_of_transfer (s := s) (t := t)
    exact hrxl h
  | drHtrx =>
    obtain ⟨_, hhtrx, _⟩ := outs_of_transfer (s := s) (t := t)
    exact hhtrx h
  | dwHtrx w =>
    obtain ⟨_, _, hhtrx⟩ := outs_of_transfer (s := s) (t := t)
    exact hhtrx w h

/-! ## Requests (60_exceptions.md R220) -/

/-- The output is in the part of the outputs that requests make. -/
theorem mem_requestIf (o : Output) (e : Bool) (tag : IrqTag) : o ∈ requestIf e tag ↔ e = true ∧ o = .irq tag := by
  cases e <;> simp [requestIf]

/-- The reserved-bit part of the outputs holds diagnostics only. -/
theorem isDiag_of_mem_reservedOuts {w : Nat} {reg : RegName} {m v : BitVec w} {o : Output}
    (h : o ∈ reservedOuts reg m v) : o.isDiag = true := by
  unfold reservedOuts at h
  split at h
  · cases h
  · rw [List.mem_singleton.mp h]
    rfl

theorem irq_not_mem_reservedOuts {w : Nat} (reg : RegName) (m v : BitVec w) (tag : IrqTag) :
    Output.irq tag ∉ reservedOuts reg m v :=
  fun h => Bool.false_ne_true (isDiag_of_mem_reservedOuts h)

/-- The event raises a request of the tag: the event, its enable and the flags of its path (R220). -/
inductive Requests (s : State) : Instr → IrqTag → Prop
  | command {b : Byte} (hbit : b.getLsbD 7 = true) (hhcie : s.hcie = true) : Requests s (.hwCvr b) .hostCommand
  | hostWrites {b : Byte} (hoff : s.bootMode = .off) (htxde : s.txde = true) (hhrdf : s.hrdf = false)
      (hhrie : s.hrie = true) : Requests s (.hwTxl b) .hostReceiveData
  | dspReads (hhrdf : s.hrdf = true) (htxde : s.txde = false) (hhrie : s.hrie = true) :
      Requests s .drHtrx .hostReceiveData
  | dspWrites {w : Word} (hrxdf : s.rxdf = false) (hhtie : s.htie = true) : Requests s (.dwHtrx w) .hostTransmitData
  | hostReads (hrxdf : s.rxdf = true) (hhtde : s.htde = false) (hhtie : s.htie = true) :
      Requests s .hrRxl .hostTransmitData

/-- The requests among the outputs of an event are the ones it raises. -/
theorem irq_mem_emitted_iff (i : Instr) (s : State) (tag : IrqTag) :
    .irq tag ∈ emitted i s ↔ Requests s i tag := by
  constructor
  · intro h
    cases i with
    | hwCvr b =>
      rcases List.mem_append.mp h with hres | hreq
      · exact absurd hres (irq_not_mem_reservedOuts _ _ _ tag)
      · obtain ⟨hcond, htag⟩ := (mem_requestIf _ _ _).mp hreq
        rw [Bool.and_eq_true] at hcond
        obtain ⟨hbit, hhcie⟩ := hcond
        cases htag
        exact .command hbit hhcie
    | hwTxl b =>
      cases hm : s.bootMode with
      | active => simp [emitted, hm] at h
      | off =>
        rw [emitted, if_neg (by simp [hm])] at h
        simp only [mem_requestIf, Bool.and_eq_true, Bool.not_eq_true'] at h
        obtain ⟨⟨⟨htxde, hhrdf⟩, hhrie⟩, htag⟩ := h
        cases htag
        exact .hostWrites hm htxde hhrdf hhrie
    | drHtrx =>
      simp only [emitted, mem_requestIf, Bool.and_eq_true, Bool.not_eq_true'] at h
      obtain ⟨⟨⟨hhrdf, htxde⟩, hhrie⟩, htag⟩ := h
      cases htag
      exact .dspReads hhrdf htxde hhrie
    | dwHtrx w =>
      simp only [emitted, mem_requestIf, Bool.and_eq_true, Bool.not_eq_true'] at h
      obtain ⟨⟨hrxdf, hhtie⟩, htag⟩ := h
      cases htag
      exact .dspWrites hrxdf hhtie
    | hrRxl =>
      simp only [emitted, mem_requestIf, Bool.and_eq_true, Bool.not_eq_true'] at h
      obtain ⟨⟨⟨hrxdf, hhtde⟩, hhtie⟩, htag⟩ := h
      cases htag
      exact .hostReads hrxdf hhtde hhtie
    | hwIcr | hwTxh | dwP =>
      simp only [emitted] at h
      split at h <;> simp [irq_not_mem_reservedOuts] at h
    | hwIsr | hwUnused4 | hwRsvd5 | hwInvalid | dwHsr => cases List.mem_singleton.mp h
    | dwHcr | dwPbc | dwBcr | dwPcd => simp [emitted, irq_not_mem_reservedOuts] at h
    | _ => cases h
  · intro h
    cases h with
    | command hbit hhcie => simp [emitted, mem_requestIf, hbit, hhcie]
    | hostWrites hoff htxde hhrdf hhrie => simp [emitted, mem_requestIf, hoff, htxde, hhrdf, hhrie]
    | dspReads hhrdf htxde hhrie => simp [emitted, mem_requestIf, hhrdf, htxde, hhrie]
    | dspWrites hrxdf hhtie => simp [emitted, mem_requestIf, hrxdf, hhtie]
    | hostReads hrxdf hhtde hhtie => simp [emitted, mem_requestIf, hrxdf, hhtde, hhtie]

/-- After an event that raises a request the request's flag and enable are 1. -/
theorem flag_of_requests {i : Instr} {s t : State} {tag : IrqTag} (hreq : Requests s i tag) (h : exec i s = .next t) :
    (tag = .hostCommand → t.hcp = true ∧ t.hcie = true) ∧ (tag = .hostReceiveData → t.hrdf = true ∧ t.hrie = true) ∧
    (tag = .hostTransmitData → t.htde = true ∧ t.htie = true) := by
  cases hreq with
  | command hbit hhcie =>
    rw [exec_hwCvr, cvrSet_eq] at h
    cases h
    refine ⟨fun _ => ⟨?_, hhcie⟩, nofun, nofun⟩
    simp only [State.hcp, getLsbD_putBit]
    exact hbit
  | hostWrites hoff htxde hhrdf hhrie =>
    obtain rfl := next_unique (exec_hwTxl_of_idle _ hoff htxde hhrdf) h
    refine ⟨nofun, fun _ => ⟨?_, hhrie⟩, nofun⟩
    simp only [State.hrdf, getLsbD_putBit]
    rfl
  | dspReads hhrdf htxde hhrie =>
    obtain rfl := next_unique (exec_drHtrx_of_full hhrdf htxde) h
    exact ⟨nofun, fun _ => ⟨hhrdf, hhrie⟩, nofun⟩
  | dspWrites hrxdf hhtie =>
    obtain rfl := next_unique (exec_dwHtrx_of_empty _ hrxdf) h
    refine ⟨nofun, nofun, fun _ => ⟨?_, hhtie⟩⟩
    simp only [State.htde, getLsbD_putBit]
    rfl
  | hostReads hrxdf hhtde hhtie =>
    obtain rfl := next_unique (exec_hrRxl_of_full hrxdf hhtde) h
    refine ⟨nofun, nofun, fun _ => ⟨?_, hhtie⟩⟩
    simp only [State.htde, getLsbD_putBit]
    rfl

/-- Settles O39: the five ways to raise a request, by tag. -/
theorem requestsAreRaisedExactlyThen : Obligations.RequestsAreRaisedExactlyThen := by
  intro i s t h
  refine ⟨emitted i s, outs_of_exec h, ?command, ?receive, ?transmit, fun hmem => ?_, fun hmem => ?_,
    fun hmem => ?_⟩
  case command =>
    rw [irq_mem_emitted_iff]
    constructor
    · rintro ⟨⟩
      exact ⟨_, rfl, ‹_›, ‹_›⟩
    · rintro ⟨b, rfl, hbit, hhcie⟩
      exact .command hbit hhcie
  case receive =>
    rw [irq_mem_emitted_iff]
    constructor
    · intro hreq
      cases hreq with
      | hostWrites hoff htxde hhrdf hhrie => exact ⟨hhrie, .inl ⟨_, rfl, hoff, htxde, hhrdf⟩⟩
      | dspReads hhrdf htxde hhrie => exact ⟨hhrie, .inr ⟨rfl, hhrdf, htxde⟩⟩
    · rintro ⟨hhrie, ⟨b, rfl, hoff, htxde, hhrdf⟩ | ⟨rfl, hhrdf, htxde⟩⟩
      · exact .hostWrites hoff htxde hhrdf hhrie
      · exact .dspReads hhrdf htxde hhrie
  case transmit =>
    rw [irq_mem_emitted_iff]
    constructor
    · intro hreq
      cases hreq with
      | dspWrites hrxdf hhtie => exact ⟨hhtie, .inl ⟨_, rfl, hrxdf⟩⟩
      | hostReads hrxdf hhtde hhtie => exact ⟨hhtie, .inr ⟨rfl, hrxdf, hhtde⟩⟩
    · rintro ⟨hhtie, ⟨w, rfl, hrxdf⟩ | ⟨rfl, hrxdf, hhtde⟩⟩
      · exact .dspWrites hrxdf hhtie
      · exact .hostReads hrxdf hhtde hhtie
  all_goals obtain ⟨hcommand, hreceive, htransmit⟩ := flag_of_requests ((irq_mem_emitted_iff i s _).mp hmem) h
  · exact hcommand rfl
  · exact hreceive rfl
  · exact htransmit rfl

/-! ## Counts (R133, R219, R225) -/

/-- At most one request and at most one diagnostic. -/
def AtMostOneEach (l : List Output) : Prop :=
  (l.filter Output.isIrq).length ≤ 1 ∧ (l.filter Output.isDiag).length ≤ 1

/-- The reserved-bit part of the outputs is at most one diagnostic. -/
theorem filter_reservedOuts {w : Nat} (reg : RegName) (m v : BitVec w) :
    (reservedOuts reg m v).filter Output.isIrq = [] ∧ ((reservedOuts reg m v).filter Output.isDiag).length ≤ 1 := by
  unfold reservedOuts
  split
  · exact ⟨rfl, Nat.zero_le 1⟩
  · exact ⟨rfl, Nat.le_refl 1⟩

/-- The request part of the outputs is at most one request. -/
theorem filter_requestIf (e : Bool) (tag : IrqTag) :
    ((requestIf e tag).filter Output.isIrq).length ≤ 1 ∧ (requestIf e tag).filter Output.isDiag = [] := by
  cases e
  · exact ⟨Nat.zero_le 1, rfl⟩
  · exact ⟨Nat.le_refl 1, rfl⟩

theorem atMostOneEach_singleton (o : Output) : AtMostOneEach [o] :=
  ⟨List.length_filter_le _ _, List.length_filter_le _ _⟩

theorem atMostOneEach_nil : AtMostOneEach [] := ⟨Nat.zero_le 1, Nat.zero_le 1⟩

theorem atMostOneEach_reservedOuts {w : Nat} (reg : RegName) (m v : BitVec w) :
    AtMostOneEach (reservedOuts reg m v) := by
  obtain ⟨hirq, hdiag⟩ := filter_reservedOuts reg m v
  exact ⟨by rw [hirq]; exact Nat.zero_le 1, hdiag⟩

theorem atMostOneEach_requestIf (e : Bool) (tag : IrqTag) : AtMostOneEach (requestIf e tag) := by
  obtain ⟨hirq, hdiag⟩ := filter_requestIf e tag
  exact ⟨hirq, by rw [hdiag]; exact Nat.zero_le 1⟩

/-- A diagnostic for reserved bits, then something that is no diagnostic. -/
theorem atMostOneEach_reservedOuts_append {w : Nat} (reg : RegName) (m v : BitVec w) {l : List Output}
    (hirq : (l.filter Output.isIrq).length ≤ 1) (hdiag : l.filter Output.isDiag = []) :
    AtMostOneEach (reservedOuts reg m v ++ l) := by
  obtain ⟨hres, hdiagRes⟩ := filter_reservedOuts reg m v
  simpa [AtMostOneEach, hres, hdiag] using And.intro hirq hdiagRes

/-- An event emits at most one request and at most one diagnostic (R133, R219). -/
theorem atMostOneEach_emitted (i : Instr) (s : State) : AtMostOneEach (emitted i s) := by
  cases i with
  | hwCvr b =>
    obtain ⟨hirq, hdiag⟩ := filter_requestIf (b.getLsbD 7 && s.hcie) .hostCommand
    exact atMostOneEach_reservedOuts_append _ _ _ hirq hdiag
  | dwPcd w => exact atMostOneEach_reservedOuts_append _ _ _ (Nat.zero_le 1) rfl
  | dwHcr | dwPbc | dwBcr => exact atMostOneEach_reservedOuts _ _ _
  | hrRxl | drHtrx | dwHtrx => exact atMostOneEach_requestIf _ _
  | hwIsr | hwUnused4 | hwRsvd5 | hwInvalid | dwHsr => exact atMostOneEach_singleton _
  | hwIcr b =>
    simp only [emitted]
    split
    · exact atMostOneEach_singleton _
    · exact atMostOneEach_reservedOuts _ _ _
  | hwTxh b =>
    simp only [emitted]
    split
    · exact atMostOneEach_singleton _
    · exact atMostOneEach_nil
  | hwTxl b =>
    simp only [emitted]
    split
    · exact atMostOneEach_singleton _
    · exact atMostOneEach_requestIf _ _
  | dwP a w =>
    simp only [emitted]
    split
    · exact atMostOneEach_reservedOuts _ _ _
    · exact atMostOneEach_singleton _
  | _ => exact atMostOneEach_nil

/-- The outputs of an event that is no write are those of a transfer, or none. -/
theorem filter_isDiag_emitted_of_not_write {i : Instr} (hw : isWriteEvent i = false) (s : State) :
    (emitted i s).filter Output.isDiag = [] := by
  rw [← Bool.not_eq_true, isWriteEvent_iff] at hw
  cases i with
  | hrRxl | drHtrx =>
    obtain ⟨_, hdiag⟩ := filter_requestIf _ _
    exact hdiag
  | hrIcr | hrCvr | hrIsr | hrIvr | hrUnused4 | hrRsvd5 | hrRxh | hrInvalid | drPbc | drHcr | drBcr | drIpr | drPcd
  | drHsr | drP | reset => rfl
  | _ => simp [column] at hw

/-- Settles O40. -/
theorem atMostOneRequestAndDiagnostic : Obligations.AtMostOneRequestAndDiagnostic := by
  intro i s t h
  obtain ⟨hirq, hdiag⟩ := atMostOneEach_emitted i s
  exact ⟨emitted i s, outs_of_exec h, hirq, hdiag, fun hw => filter_isDiag_emitted_of_not_write hw s⟩

/-- A command write with HCIE on emits exactly one Host Command, whatever HCP is (R136). -/
theorem filter_hostCommand_emitted {s : State} {b : Byte} (hhcie : s.hcie = true) (hbit : b.getLsbD 7 = true) :
    (emitted (.hwCvr b) s).filter (· == .irq .hostCommand) = [.irq .hostCommand] := by
  have hres : (reservedOuts .cvr Layout.maskCVR b).filter (· == .irq .hostCommand) = [] := by
    rw [List.filter_eq_nil_iff]
    intro o ho heq
    rw [beq_iff_eq.mp heq] at ho
    exact irq_not_mem_reservedOuts _ _ _ _ ho
  rw [emitted, List.filter_append, hres, hbit, hhcie]
  rfl

/-- Settles O41, by induction on the writes; HCIE is not in the way of CVR writes. -/
theorem repeatedCommandsRaiseAgain : Obligations.RepeatedCommandsRaiseAgain := by
  intro bs
  induction bs with
  | nil =>
    intro s t _ _ h
    cases h
    rfl
  | cons b bs ih =>
    intro s t hhcie hbits h
    obtain ⟨u, hu, hrest⟩ := execAll_cons_eq_next h
    rw [List.forall_mem_cons] at hbits
    obtain ⟨hbit, hbits⟩ := hbits
    have hhcieU : u.hcie = true := by
      rw [exec_hwCvr, cvrSet_eq] at hu
      cases hu
      exact hhcie
    rw [ih u t hhcieU hbits hrest, outs_of_exec hu, List.filter_append, filter_hostCommand_emitted hhcie hbit]
    simp only [List.length_append, List.length_cons, List.length_nil]
    omega

/-- Settles O42: neither what an event needs to run nor what it emits speaks of IPR. -/
theorem raisingIgnoresIpr : Obligations.RaisingIgnoresIpr := by
  intro i s t x h
  have hrun := canRun_of_exec h
  obtain ⟨u, hu⟩ := exec_completes (s := { s with ipr := x }) hrun
  have hsame : emitted i { s with ipr := x } = emitted i s := by cases i <;> rfl
  refine ⟨u, hu, ?_⟩
  rw [outs_of_exec hu, outs_of_exec h, hsame]

end Sys2Proof.Machine
end

section
/-! SUPPORT. What the events of one side cannot reach (45_host_port.md R204, 44_dsp_dispatcher.md R180). -/

namespace Sys2Proof.Machine

/-- A store of a bit outside a mask is not seen under the mask. -/
theorem putBit_and_of_not_mem {w : Nat} (r m : BitVec w) (k : Nat) (b : Bool) (hk : m.getLsbD k = false) :
    putBit r k b &&& m = r &&& m := by
  apply BitVec.eq_of_getLsbD_eq
  intro j _
  rw [BitVec.getLsbD_and, BitVec.getLsbD_and, getLsbD_putBit]
  split
  · next hj => rw [hj.2, hk, Bool.and_false, Bool.and_false]
  · rfl

/-! ## Host events (R204) -/

/-- What a host event leaves alone; of HSR it reaches bits 4 to 0 only. -/
theorem hostFrame_of_effect {i : Instr} {s t : State} (h : Effect s i t)
    (hhost : column i = .hostRead ∨ column i = .hostWrite) :
    t.hcr = s.hcr ∧ t.ipr = s.ipr ∧ t.htx = s.htx ∧ t.p = s.p ∧ t.hsr &&& 0xffe0#16 = s.hsr &&& 0xffe0#16 ∧
    t.cfg = s.cfg ∧ t.queue = s.queue ∧ t.freeCount = s.freeCount := by
  cases h with
  | readOnly | discarded | consumeRx | txhDropped | txhStored | txlDropped | txlStaged | bootHigh | bootLow | abort
  | ivr => exact ⟨rfl, rfl, rfl, rfl, rfl, rfl, rfl, rfl⟩
  | consumeRxTransfer | txlTransfer | abortLatching | icr | cvr =>
    simp (disch := decide) only [putBit_and_of_not_mem, and_self]
  | consumeHrx | consumeHrxTransfer | htxStaged | htxTransfer | hcr | ipr | pbc | bcr | pcd | plain | reset =>
    simp [column] at hhost

/-- A host read but RXL changes only the result. -/
theorem hostRead_frame {i : Instr} {s t : State} (h : exec i s = .next t) (hread : column i = .hostRead) :
    i = .hrRxl ∨ t = { s with result := t.result } := by
  by_cases hi : i = .hrRxl
  · exact .inl hi
  · have hc : ¬ Consumes i s := by
      rintro (⟨rfl, _⟩ | ⟨hrxl, _⟩)
      · cases hread
      · exact hi hrxl
    obtain ⟨r, _, rfl⟩ := eq_withResult_of_read h (.inl hread) hc
    exact .inr rfl

/-- A discarded host write, or one dropped by a full path, changes only the outputs. -/
theorem droppedWrite_frame (i : Instr) (s t : State) (b o : Byte)
    (hi : i ∈ [.hwIsr b, .hwUnused4 b, .hwRsvd5 b, .hwInvalid o b] ∨
      i ∈ [.hwTxh b, .hwTxl b] ∧ s.txde = false ∧ s.bootMode = .off)
    (h : exec i s = .next t) : t = { s with outs := t.outs } := by
  simp only [List.mem_cons, List.not_mem_nil, or_false] at hi
  rcases hi with (rfl | rfl | rfl | rfl) | ⟨rfl | rfl, htxde, hoff⟩
  · cases h
    rfl
  · cases h
    rfl
  · cases h
    rfl
  · obtain rfl := next_unique (exec_hwInvalid b (wellFormed_of_exec h) s) h
    rfl
  · obtain rfl := next_unique (exec_hwTxh_of_full b hoff htxde) h
    rfl
  · obtain rfl := next_unique (exec_hwTxl_of_full b hoff htxde) h
    rfl

/-- Settles O44. -/
theorem hostEventFrame : Obligations.HostEventFrame :=
  ⟨fun i s t hhost h => hostFrame_of_effect (effect_of_exec i s t h) ((isHostEvent_iff i).mp hhost),
    fun _ _ _ hhost hw h => hostRead_frame h (column_eq_hostRead hhost hw), hrRxl_changes_state, droppedWrite_frame⟩

/-! ## DSP events (R180) -/

/-- What a DSP event leaves alone. -/
theorem dspFrame_of_effect {i : Instr} {s t : State} (h : Effect s i t)
    (hdsp : column i = .dspRead ∨ column i = .dspWrite) :
    t.icr = s.icr ∧ t.cvr = s.cvr ∧ t.ivr = s.ivr ∧ t.txh = s.txh ∧ t.txl = s.txl ∧
    t.bootMode = s.bootMode ∧ t.bootOffset = s.bootOffset ∧
    t.pmem = s.pmem ∧ t.cfg = s.cfg ∧ t.queue = s.queue ∧ t.freeCount = s.freeCount := by
  cases h with
  | readOnly | discarded | consumeHrx | consumeHrxTransfer | htxStaged | htxTransfer | hcr | ipr | pbc | bcr | pcd
  | plain => exact ⟨rfl, rfl, rfl, rfl, rfl, rfl, rfl, rfl, rfl, rfl, rfl⟩
  | consumeRx | consumeRxTransfer | txhDropped | txhStored | txlDropped | txlStaged | txlTransfer | bootHigh | bootLow
  | abort | abortLatching | icr | cvr | ivr | reset => simp [column] at hdsp

/-- A DSP read but of 0xffe5 changes only the result. -/
theorem dspRead_frame {i : Instr} {s t : State} (h : exec i s = .next t) (hread : column i = .dspRead) :
    i = .drHtrx ∨ t = { s with result := t.result } := by
  by_cases hi : i = .drHtrx
  · exact .inl hi
  · have hc : ¬ Consumes i s := by
      rintro (⟨hhtrx, _⟩ | ⟨rfl, _⟩)
      · exact hi hhtrx
      · cases hread
    obtain ⟨r, _, rfl⟩ := eq_withResult_of_read h (.inr hread) hc
    exact .inr rfl

/-- A DSP event emits diagnostics, the requests of 0xffe5, and the value of Port C Data. -/
theorem dspOutput_cases {i : Instr} {s : State} {o : Output} (hdsp : column i = .dspRead ∨ column i = .dspWrite)
    (ho : o ∈ emitted i s) : o.isDiag = true ∨ (i = .drHtrx ∧ o = .irq .hostReceiveData) ∨
      (∃ w, i = .dwHtrx w ∧ o = .irq .hostTransmitData) ∨ (∃ w, i = .dwPcd w ∧ o = .portC (w &&& s.cfg.maskPcd)) := by
  cases i with
  | drHtrx =>
    obtain ⟨_, hirq⟩ := (mem_requestIf _ _ _).mp ho
    exact .inr (.inl ⟨rfl, hirq⟩)
  | dwHtrx w =>
    obtain ⟨_, hirq⟩ := (mem_requestIf _ _ _).mp ho
    exact .inr (.inr (.inl ⟨w, rfl, hirq⟩))
  | dwPcd w =>
    rcases List.mem_append.mp ho with hres | hport
    · exact .inl (isDiag_of_mem_reservedOuts hres)
    · exact .inr (.inr (.inr ⟨w, rfl, List.mem_singleton.mp hport⟩))
  | dwPbc | dwHcr | dwBcr => exact .inl (isDiag_of_mem_reservedOuts ho)
  | dwHsr w =>
    rw [List.mem_singleton.mp ho]
    exact .inl rfl
  | dwP a w =>
    simp only [emitted] at ho
    split at ho
    · exact .inl (isDiag_of_mem_reservedOuts ho)
    · rw [List.mem_singleton.mp ho]
      exact .inl rfl
  | drPbc | drHcr | drBcr | drIpr | drPcd | drHsr | drP | dwIpr => cases ho
  | _ => simp [column] at hdsp

/-- Settles O45. -/
theorem dspEventFrame : Obligations.DspEventFrame :=
  ⟨fun i s t hdsp h => dspFrame_of_effect (effect_of_exec i s t h) ((isDspEvent_iff i).mp hdsp),
    fun _ _ _ hdsp hw h => dspRead_frame h (column_eq_dspRead hdsp hw), drHtrx_changes_state,
    fun i s _ hdsp h => ⟨emitted i s, outs_of_exec h, fun _ ho => dspOutput_cases ((isDspEvent_iff i).mp hdsp) ho⟩⟩

end Sys2Proof.Machine
end

section
/-! SUPPORT. The Interrupt Priority Decoder (41_interrupt_priority_decoder.md): each projection as arithmetic on the value,
and the value back from its projections. -/

namespace Sys2Proof.Machine

/-! ## Levels as integers -/

/-- The level of a field is the field minus one (R110). -/
theorem toInt_iplOfField (f : BitVec 2) : (iplOfField f).toInt = (f.toNat : Int) - 1 := by
  revert f
  decide

/-- The level at a field position, by division. -/
theorem toInt_iplOfField_extractLsb' (v : Word) (lo : Nat) :
    (iplOfField (v.extractLsb' lo 2)).toInt = (v.toNat / 2 ^ lo % 4 : Int) - 1 := by
  rw [toInt_iplOfField, BitVec.extractLsb'_toNat, Nat.shiftRight_eq_div_pow]
  push_cast
  rfl

/-- A bit, by division. -/
theorem getLsbD_eq_decide_div (v : Word) (k : Nat) : v.getLsbD k = decide (v.toNat / 2 ^ k % 2 = 1) := by
  rw [BitVec.getLsbD, Nat.testBit_eq_decide_div_mod_eq]

/-- Settles O48: each projection is a field or a bit at its place. -/
theorem priorityLevelsAreFieldMinusOne : Obligations.PriorityLevelsAreFieldMinusOne := by
  intro v
  have hirqa := toInt_iplOfField_extractLsb' v 0
  simp only [pow_zero, Int.ediv_one] at hirqa
  exact ⟨hirqa, getLsbD_eq_decide_div v 2, toInt_iplOfField_extractLsb' v 3, getLsbD_eq_decide_div v 5,
    toInt_iplOfField_extractLsb' v 6, toInt_iplOfField_extractLsb' v 8, toInt_iplOfField_extractLsb' v 10,
    toInt_iplOfField_extractLsb' v 12, toInt_iplOfField_extractLsb' v 14⟩

/-! ## The value from its projections -/

/-- The field of a level. -/
def Ipl.field : Ipl → Nat
  | .disabled => 0
  | .level0 => 1
  | .level1 => 2
  | .level2 => 3

/-- A field is two bits wide. -/
theorem Ipl.field_lt (l : Ipl) : l.field < 4 := by
  cases l <;> decide

/-- The level of a field determines the field. -/
theorem iplOfField_eq_iff (f : BitVec 2) (l : Ipl) : iplOfField f = l ↔ f.toNat = l.field := by
  revert f
  cases l <;> decide

/-- A level of a value, by division. -/
theorem iplOfField_extractLsb'_eq_iff (v : Word) (lo : Nat) (l : Ipl) :
    iplOfField (v.extractLsb' lo 2) = l ↔ v.toNat / 2 ^ lo % 4 = l.field := by
  rw [iplOfField_eq_iff, BitVec.extractLsb'_toNat, Nat.shiftRight_eq_div_pow]

/-- A trigger bit of a value, by division. -/
theorem getLsbD_eq_iff (v : Word) (k : Nat) (b : Bool) : v.getLsbD k = b ↔ v.toNat / 2 ^ k % 2 = b.toNat := by
  rw [getLsbD_eq_decide_div]
  have hbit := Nat.mod_two_eq_zero_or_one (v.toNat / 2 ^ k)
  cases b <;> simp

/-- The value whose projections are given. -/
def iprOf (q : Projections) : Nat :=
  q.irqa.field + 4 * q.irqaTrigger.toNat + 8 * q.irqb.field + 32 * q.irqbTrigger.toNat + 64 * q.codec.field +
    256 * q.host.field + 1024 * q.ssi0.field + 4096 * q.ssi1.field + 16384 * q.timer.field

/-- The nine projections at their places (30_encoding.md R69). -/
theorem projections_eq (v : Word) : projections v =
    ⟨iplOfField (v.extractLsb' 0 2), v.getLsbD 2, iplOfField (v.extractLsb' 3 2), v.getLsbD 5,
      iplOfField (v.extractLsb' 6 2), iplOfField (v.extractLsb' 8 2), iplOfField (v.extractLsb' 10 2),
      iplOfField (v.extractLsb' 12 2), iplOfField (v.extractLsb' 14 2)⟩ := rfl

/-- The digits of that value are in their ranges. -/
theorem digits_lt (q : Projections) : q.irqa.field < 4 ∧ q.irqaTrigger.toNat < 2 ∧ q.irqb.field < 4 ∧
    q.irqbTrigger.toNat < 2 ∧ q.codec.field < 4 ∧ q.host.field < 4 ∧ q.ssi0.field < 4 ∧ q.ssi1.field < 4 ∧
    q.timer.field < 4 :=
  ⟨q.irqa.field_lt, q.irqaTrigger.toNat_lt, q.irqb.field_lt, q.irqbTrigger.toNat_lt, q.codec.field_lt, q.host.field_lt,
    q.ssi0.field_lt, q.ssi1.field_lt, q.timer.field_lt⟩

/-- The projections of a value are the digits of the value (R121). -/
theorem projections_eq_iff (v : Word) (q : Projections) : projections v = q ↔ v.toNat = iprOf q := by
  have hv := v.isLt
  cases q with
  | mk irqa irqaTrigger irqb irqbTrigger codec host ssi0 ssi1 timer =>
    have hdigits := digits_lt ⟨irqa, irqaTrigger, irqb, irqbTrigger, codec, host, ssi0, ssi1, timer⟩
    simp only at hdigits
    simp only [projections_eq, Projections.mk.injEq, iplOfField_extractLsb'_eq_iff, getLsbD_eq_iff, iprOf]
    omega

/-- A value of IPR fits its register. -/
theorem iprOf_lt (q : Projections) : iprOf q < 2 ^ 16 := by
  have hdigits := digits_lt q
  unfold iprOf
  omega

/-- Settles O49: the projections of a value are its digits, which determine it and can be any. -/
theorem priorityProjectionsAreABijection : Obligations.PriorityProjectionsAreABijection := by
  refine ⟨rfl, rfl, fun v w h => ?injective, fun q => ⟨BitVec.ofNat 16 (iprOf q), ?surjective⟩⟩
  case injective =>
    apply BitVec.eq_of_toNat_eq
    rw [(projections_eq_iff v _).mp h, (projections_eq_iff w _).mp rfl]
  case surjective =>
    rw [projections_eq_iff, BitVec.toNat_ofNat, Nat.mod_eq_of_lt (iprOf_lt q)]

/-! ## The level of a request -/

/-- Settles O50: the write stores its value in IPR (O24), and the level is the value's HOST field minus one (O48). -/
theorem requestLevelFollowsIpr : Obligations.RequestLevelFollowsIpr := by
  intro s w tag
  obtain ⟨_, hwIpr, _⟩ := writesOfPlainRegisters s
  obtain ⟨_, _, _, _, _, hhost, _⟩ := priorityLevelsAreFieldMinusOne w
  exact ⟨_, hwIpr w, hhost⟩

end Sys2Proof.Machine
end
